-- ==== Sys2Proof/Word.lean ====
section
/-! DEFINITION. The fixed-width words of the block: spec/00_scope.md R9, R10, R14 and spec/10_state.md R25, R29.
Bit vectors stand for what the spec numbers bit by bit (the raw word and the fields sliced from it).
The signed immediate is an integer in the spec (R29: -32768 to 32767), so it is an `Int` here. -/

namespace Sys2Proof

/-- The raw word `Word32`: 0 to 2^32 - 1, bit 31 the most significant (R10, R25). -/
abbrev Word := BitVec 32

/-- A register index, 0 to 31: a number delivered to a register file outside the block (R21, R68). -/
abbrev RegIndex := BitVec 5

/-- A shift amount, 0 to 31 (R68). -/
abbrev ShiftAmount := BitVec 5

/-- A 6-bit code: a primary opcode or a function code (R9). -/
abbrev Code := BitVec 6

end Sys2Proof
end

