-- ==== Sys2Proof/Config.lean ====
section
/-! DEFINITION. What is fixed once for the block: the counts of spec/00_scope.md R9, and the model's one choice.
The spec leaves nothing inside the block open (spec/92_eei_decisions.md, "Open parameters"; spec/93_implementation_defined.md
section 1: "no `any value`, no `stuck` and no non-deterministic choice"), so there is no free value here. -/

namespace Sys2Proof.Config

/-- R9: register-operation tags. -/
abbrev registerTags : Nat := 20

/-- R9: jump tags. -/
abbrev jumpTags : Nat := 2

/-- R9: immediate-operation tags. -/
abbrev immediateTags : Nat := 15

/-- R9: recognised primary opcode values. -/
abbrev recognisedOpcodes : Nat := 18

/-- R9: unrecognised primary opcode values. -/
abbrev unrecognisedOpcodes : Nat := 46

/-- R9: recognised function codes. -/
abbrev recognisedFunctions : Nat := 20

/-- R9: unrecognised function codes. -/
abbrev unrecognisedFunctions : Nat := 44

/-- What the input port `word` holds before the caller has presented a word.
DESIGN CHOICE (notes/assumptions/2.md), unsafe: the spec gives the input no initial value (R36, R270). -/
def initialWord : Word := 0x00000000

end Sys2Proof.Config
end

