-- ==== Sys2Proof/Syntax.lean ====
section
/-! DEFINITION. The instructions: one constructor per row of spec/opcode_table.json (spec/30_encoding.md R70, R71).
The operands are those the decoder delivers for the row (the row's `result`). -/

namespace Sys2Proof

/-- The 37 instructions of R2, in the order of the opcode table.
A register operation carries all four operand fields whether or not its name suggests a use for them (R76, R131).
A jump carries the raw 26-bit payload as a 32-bit value (R67); an immediate operation the signed immediate (R66). -/
inductive Instr where
  /-- R162: opcode 0, function code 0x00. -/
  | shiftLeftLogical (rs rt rd : RegIndex) (shamt : ShiftAmount)
  /-- R163: opcode 0, function code 0x02. -/
  | shiftRightLogical (rs rt rd : RegIndex) (shamt : ShiftAmount)
  /-- R164: opcode 0, function code 0x03. -/
  | shiftRightArithmetic (rs rt rd : RegIndex) (shamt : ShiftAmount)
  /-- R165: opcode 0, function code 0x08. -/
  | jumpRegister (rs rt rd : RegIndex) (shamt : ShiftAmount)
  /-- R166: opcode 0, function code 0x10. -/
  | moveFromHi (rs rt rd : RegIndex) (shamt : ShiftAmount)
  /-- R167: opcode 0, function code 0x12. -/
  | moveFromLo (rs rt rd : RegIndex) (shamt : ShiftAmount)
  /-- R168: opcode 0, function code 0x18. -/
  | multiply (rs rt rd : RegIndex) (shamt : ShiftAmount)
  /-- R169: opcode 0, function code 0x19. -/
  | multiplyUnsigned (rs rt rd : RegIndex) (shamt : ShiftAmount)
  /-- R170: opcode 0, function code 0x1A. -/
  | divide (rs rt rd : RegIndex) (shamt : ShiftAmount)
  /-- R171: opcode 0, function code 0x1B. -/
  | divideUnsigned (rs rt rd : RegIndex) (shamt : ShiftAmount)
  /-- R172: opcode 0, function code 0x20. -/
  | add (rs rt rd : RegIndex) (shamt : ShiftAmount)
  /-- R173: opcode 0, function code 0x21. -/
  | addUnsigned (rs rt rd : RegIndex) (shamt : ShiftAmount)
  /-- R174: opcode 0, function code 0x22. -/
  | subtract (rs rt rd : RegIndex) (shamt : ShiftAmount)
  /-- R175: opcode 0, function code 0x23. -/
  | subtractUnsigned (rs rt rd : RegIndex) (shamt : ShiftAmount)
  /-- R176: opcode 0, function code 0x24. -/
  | and (rs rt rd : RegIndex) (shamt : ShiftAmount)
  /-- R177: opcode 0, function code 0x25. -/
  | or (rs rt rd : RegIndex) (shamt : ShiftAmount)
  /-- R178: opcode 0, function code 0x26. -/
  | xor (rs rt rd : RegIndex) (shamt : ShiftAmount)
  /-- R179: opcode 0, function code 0x27. -/
  | nor (rs rt rd : RegIndex) (shamt : ShiftAmount)
  /-- R180: opcode 0, function code 0x2A. -/
  | setLessThan (rs rt rd : RegIndex) (shamt : ShiftAmount)
  /-- R181: opcode 0, function code 0x2B. -/
  | setLessThanUnsigned (rs rt rd : RegIndex) (shamt : ShiftAmount)
  /-- R193: opcode 0x02. -/
  | jump (target : Word)
  /-- R194: opcode 0x03. -/
  | jumpAndLink (target : Word)
  /-- R203: opcode 0x04. -/
  | branchEqual (rs rt : RegIndex) (imm : Int)
  /-- R204: opcode 0x05. -/
  | branchNotEqual (rs rt : RegIndex) (imm : Int)
  /-- R205: opcode 0x08. -/
  | addImmediate (rs rt : RegIndex) (imm : Int)
  /-- R206: opcode 0x09. -/
  | addImmediateUnsigned (rs rt : RegIndex) (imm : Int)
  /-- R207: opcode 0x0A. -/
  | setLessThanImmediate (rs rt : RegIndex) (imm : Int)
  /-- R208: opcode 0x0B. -/
  | setLessThanImmediateUnsigned (rs rt : RegIndex) (imm : Int)
  /-- R209: opcode 0x0C. -/
  | andImmediate (rs rt : RegIndex) (imm : Int)
  /-- R210: opcode 0x0D. -/
  | orImmediate (rs rt : RegIndex) (imm : Int)
  /-- R211: opcode 0x0F. -/
  | loadUpperImmediate (rs rt : RegIndex) (imm : Int)
  /-- R222: opcode 0x23. -/
  | loadWord (rs rt : RegIndex) (imm : Int)
  /-- R223: opcode 0x24. -/
  | loadByteUnsigned (rs rt : RegIndex) (imm : Int)
  /-- R224: opcode 0x25. -/
  | loadHalfwordUnsigned (rs rt : RegIndex) (imm : Int)
  /-- R225: opcode 0x28. -/
  | storeByte (rs rt : RegIndex) (imm : Int)
  /-- R226: opcode 0x29. -/
  | storeHalfword (rs rt : RegIndex) (imm : Int)
  /-- R227: opcode 0x2B. -/
  | storeWord (rs rt : RegIndex) (imm : Int)
  deriving DecidableEq, Repr

end Sys2Proof
end

