-- ==== Sys2Proof/WellFormed.lean ====
section
/-! DEFINITION. Which terms of `Instr` are instructions: the ranges of spec/10_state.md R29.
Register indices and shift amounts fill their five bits, so only the jump payload and the immediate have a check.
No other check exists: the decoder validates no operand (spec/30_encoding.md R76, spec/42_instruction_builder.md R139). -/

namespace Sys2Proof

/-- R29, R67: bits 31 to 26 of a jump's `target` are zero. -/
def targetInRange (target : Word) : Bool := decide (target.toNat < 2 ^ 26)

/-- R29, R66: `imm` is a signed 16-bit value. -/
def immInRange (imm : Int) : Bool := decide (-32768 ≤ imm) && decide (imm ≤ 32767)

/-- The well-formed instructions (R29). -/
def Instr.wellFormed (i : Instr) : Bool :=
  match i with
  | .shiftLeftLogical _ _ _ _ => true
  | .shiftRightLogical _ _ _ _ => true
  | .shiftRightArithmetic _ _ _ _ => true
  | .jumpRegister _ _ _ _ => true
  | .moveFromHi _ _ _ _ => true
  | .moveFromLo _ _ _ _ => true
  | .multiply _ _ _ _ => true
  | .multiplyUnsigned _ _ _ _ => true
  | .divide _ _ _ _ => true
  | .divideUnsigned _ _ _ _ => true
  | .add _ _ _ _ => true
  | .addUnsigned _ _ _ _ => true
  | .subtract _ _ _ _ => true
  | .subtractUnsigned _ _ _ _ => true
  | .and _ _ _ _ => true
  | .or _ _ _ _ => true
  | .xor _ _ _ _ => true
  | .nor _ _ _ _ => true
  | .setLessThan _ _ _ _ => true
  | .setLessThanUnsigned _ _ _ _ => true
  | .jump target => targetInRange target
  | .jumpAndLink target => targetInRange target
  | .branchEqual _ _ imm => immInRange imm
  | .branchNotEqual _ _ imm => immInRange imm
  | .addImmediate _ _ imm => immInRange imm
  | .addImmediateUnsigned _ _ imm => immInRange imm
  | .setLessThanImmediate _ _ imm => immInRange imm
  | .setLessThanImmediateUnsigned _ _ imm => immInRange imm
  | .andImmediate _ _ imm => immInRange imm
  | .orImmediate _ _ imm => immInRange imm
  | .loadUpperImmediate _ _ imm => immInRange imm
  | .loadWord _ _ imm => immInRange imm
  | .loadByteUnsigned _ _ imm => immInRange imm
  | .loadHalfwordUnsigned _ _ imm => immInRange imm
  | .storeByte _ _ imm => immInRange imm
  | .storeHalfword _ _ imm => immInRange imm
  | .storeWord _ _ imm => immInRange imm

end Sys2Proof
end

