-- ==== Sys2Proof/Decode.lean ====
section
/-! DEFINITION. The block itself: the value types (spec/10_state.md R26 to R32), the Field Extractor
(spec/40_field_extractor.md), the Opcode Classifier (spec/41_opcode_classifier.md), the Instruction Builder's `decode`
(spec/42_instruction_builder.md R130), the naming of a decoded value by its constructor of `Instr`, the match and mask of every
row (spec/30_encoding.md R72), and after them the encoder (R79), which the block itself does not have. -/

namespace Sys2Proof

/-! ### The tags and the values (R26 to R32) -/

/-- The register-operation tag, exactly 20 members (R26). -/
inductive FunctTag where
  | shiftLeftLogical
  | shiftRightLogical
  | shiftRightArithmetic
  | jumpRegister
  | moveFromHi
  | moveFromLo
  | multiply
  | multiplyUnsigned
  | divide
  | divideUnsigned
  | add
  | addUnsigned
  | subtract
  | subtractUnsigned
  | and
  | or
  | xor
  | nor
  | setLessThan
  | setLessThanUnsigned
  deriving DecidableEq, Repr

/-- The jump tag, exactly 2 members (R27). -/
inductive JumpTag where
  | jump
  | jumpAndLink
  deriving DecidableEq, Repr

/-- The 15 immediate-operation members of `OpTag`: all but the register-family trigger (R28). -/
inductive ImmTag where
  | branchEqual
  | branchNotEqual
  | addImmediate
  | addImmediateUnsigned
  | setLessThanImmediate
  | setLessThanImmediateUnsigned
  | andImmediate
  | orImmediate
  | loadUpperImmediate
  | loadWord
  | loadByteUnsigned
  | loadHalfwordUnsigned
  | storeByte
  | storeHalfword
  | storeWord
  deriving DecidableEq, Repr

/-- The opcode-level tag, exactly 16 members: the trigger and the 15 immediate operations (R28; spec/90_conflicts.md C2).
That an Immediate form is never tagged `registerTrigger` is carried by its type, `ImmTag` (notes/assumptions/5.md). -/
inductive OpTag where
  | registerTrigger
  | operation (t : ImmTag)
  deriving DecidableEq, Repr

/-- The two decode errors; neither carries data (R32, R240; spec/92_eei_decisions.md D7). -/
inductive DecodeError where
  /-- The primary opcode is not recognised (R241). -/
  | unknownOpcode
  /-- The opcode is 0 and the function code is not recognised (R242). -/
  | unknownFunction
  deriving DecidableEq, Repr

/-- A returned value or a returned error, never both and never neither (R32): what `raise` ends with is a value (R13). -/
inductive OrError (α : Type) where
  | value (a : α)
  | error (e : DecodeError)
  deriving DecidableEq, Repr

/-- A decoded instruction, one of three forms (R29). The order of the components is that of the result notation (R15).
The Register form's constant tag `RegisterTrigger` is not stored (R29 allows it): `Instruction.opTag` gives it. -/
inductive Instruction where
  | register (funct : FunctTag) (rs rt rd : RegIndex) (shamt : ShiftAmount)
  | jump (tag : JumpTag) (target : Word)
  | immediate (tag : ImmTag) (rs rt : RegIndex) (imm : Int)
  deriving DecidableEq, Repr

/-- The result of one decode evaluation: `Instruction + DecodeError` (R32). -/
abbrev DecodeResult := OrError Instruction

/-- R28, R29: the `OpTag` a form carries; a Jump form carries a `JumpTag` instead. -/
def Instruction.opTag : Instruction → Option OpTag
  | .register _ _ _ _ _ => some .registerTrigger
  | .jump _ _ => none
  | .immediate t _ _ _ => some (.operation t)

/-- The ranges of R29. -/
def Instruction.legal : Instruction → Bool
  | .register _ _ _ _ _ => true
  | .jump _ target => targetInRange target
  | .immediate _ _ _ imm => immInRange imm

/-- A result that R29 and R32 allow. -/
def DecodeResult.legal : DecodeResult → Bool
  | .value i => i.legal
  | .error _ => true

/-- The five outcome classes of R77 and R134. -/
inductive OutcomeClass where
  | registerForm
  | unknownFunction
  | jumpForm
  | immediateForm
  | unknownOpcode
  deriving DecidableEq, Repr

/-- The outcome class of a result (R134). -/
def DecodeResult.outcomeClass : DecodeResult → OutcomeClass
  | .value (.register _ _ _ _ _) => .registerForm
  | .value (.jump _ _) => .jumpForm
  | .value (.immediate _ _ _ _) => .immediateForm
  | .error .unknownOpcode => .unknownOpcode
  | .error .unknownFunction => .unknownFunction

/-! ### The Field Extractor (R90 to R98)

Each extraction is a selection of wires of the word (R101), total and without effect (R99), whatever the word is classified as
(R100). -/

/-- R90: bits 31 to 26. -/
def opcode (w : Word) : Code := w.extractLsb' 26 6

/-- R91: bits 25 to 21. -/
def sourceRegister (w : Word) : RegIndex := w.extractLsb' 21 5

/-- R92: bits 20 to 16. -/
def targetRegister (w : Word) : RegIndex := w.extractLsb' 16 5

/-- R93: bits 15 to 11. -/
def destinationRegister (w : Word) : RegIndex := w.extractLsb' 11 5

/-- R94: bits 10 to 6. -/
def shiftAmount (w : Word) : ShiftAmount := w.extractLsb' 6 5

/-- R95: bits 5 to 0. -/
def functionCode (w : Word) : Code := w.extractLsb' 0 6

/-- R96: bits 15 to 0, the pattern behind the immediate. -/
def immediateBits (w : Word) : BitVec 16 := w.extractLsb' 0 16

/-- R97: bits 15 to 0 read as signed; nothing is widened (spec/90_conflicts.md C1). -/
def immediate (w : Word) : Int := (immediateBits w).toInt

/-- R98: bits 25 to 0, zero-extended to 32 bits; not shifted, not sign-extended (R192; spec/90_conflicts.md C5). -/
def targetAddress (w : Word) : Word := (w.extractLsb' 0 26).setWidth 32

/-! ### The Opcode Classifier (R110 to R121): two independent tables (R117), no default (R118) -/

/-- `IMM_TABLE` (R113). -/
def immTable : List (Code × ImmTag) :=
  [(0x04, .branchEqual),
   (0x05, .branchNotEqual),
   (0x08, .addImmediate),
   (0x09, .addImmediateUnsigned),
   (0x0A, .setLessThanImmediate),
   (0x0B, .setLessThanImmediateUnsigned),
   (0x0C, .andImmediate),
   (0x0D, .orImmediate),
   (0x0F, .loadUpperImmediate),
   (0x23, .loadWord),
   (0x24, .loadByteUnsigned),
   (0x25, .loadHalfwordUnsigned),
   (0x28, .storeByte),
   (0x29, .storeHalfword),
   (0x2B, .storeWord)]

/-- `FUNCT_TABLE` (R115). -/
def functTable : List (Code × FunctTag) :=
  [(0x00, .shiftLeftLogical),
   (0x02, .shiftRightLogical),
   (0x03, .shiftRightArithmetic),
   (0x08, .jumpRegister),
   (0x10, .moveFromHi),
   (0x12, .moveFromLo),
   (0x18, .multiply),
   (0x19, .multiplyUnsigned),
   (0x1A, .divide),
   (0x1B, .divideUnsigned),
   (0x20, .add),
   (0x21, .addUnsigned),
   (0x22, .subtract),
   (0x23, .subtractUnsigned),
   (0x24, .and),
   (0x25, .or),
   (0x26, .xor),
   (0x27, .nor),
   (0x2A, .setLessThan),
   (0x2B, .setLessThanUnsigned)]

/-- The successful results of the opcode classification: the three family tags, each with its operation (R110; C2). -/
inductive OpcodeClass where
  | trigger
  | jumpClass (j : JumpTag)
  | immClass (t : ImmTag)
  deriving DecidableEq, Repr

/-- `IMM_TABLE[op]`, or the error where there is no entry (R113, R114). -/
def lookupImmediate (op : Code) : OrError ImmTag :=
  match immTable.lookup op with
  | some t => .value t
  | none => .error .unknownOpcode

/-- `classify_opcode` (R110). -/
def classifyOpcode (op : Code) : OrError OpcodeClass :=
  if op = 0x00 then .value .trigger
  else if op = 0x02 then .value (.jumpClass .jump)
  else if op = 0x03 then .value (.jumpClass .jumpAndLink)
  else
    match lookupImmediate op with
    | .value t => .value (.immClass t)
    | .error e => .error e

/-- `classify_function` (R115, R116). -/
def classifyFunction (fc : Code) : OrError FunctTag :=
  match functTable.lookup fc with
  | some f => .value f
  | none => .error .unknownFunction

/-! ### The Instruction Builder (R130 to R133) -/

/-- Step 1, the register path (R131). -/
def decodeRegister (w : Word) : DecodeResult :=
  match classifyFunction (functionCode w) with
  | .value f =>
    .value (.register f (sourceRegister w) (targetRegister w) (destinationRegister w) (shiftAmount w))
  | .error e => .error e

/-- Step 2, the jump path (R132). -/
def decodeJump (w : Word) : DecodeResult :=
  .value (.jump (if opcode w = 0x02 then .jump else .jumpAndLink) (targetAddress w))

/-- Step 3, the immediate path (R133); on an error the extracted fields are discarded (spec/90_conflicts.md C6). -/
def decodeImmediate (w : Word) : DecodeResult :=
  match lookupImmediate (opcode w) with
  | .value t => .value (.immediate t (sourceRegister w) (targetRegister w) (immediate w))
  | .error e => .error e

/-- `decode` (R130): the whole behaviour of the block, total and deterministic (R17, R134). -/
def decode (w : Word) : DecodeResult :=
  if opcode w = 0x00 then decodeRegister w
  else if opcode w = 0x02 ∨ opcode w = 0x03 then decodeJump w
  else decodeImmediate w

/-! ### A decoded value and the constructor of `Instr` that names it: the opcode table's column `result` -/

/-- The value of the table's row: what the decoder outputs for an instruction. -/
def Instr.toInstruction : Instr → Instruction
  | .shiftLeftLogical rs rt rd shamt => .register .shiftLeftLogical rs rt rd shamt
  | .shiftRightLogical rs rt rd shamt => .register .shiftRightLogical rs rt rd shamt
  | .shiftRightArithmetic rs rt rd shamt => .register .shiftRightArithmetic rs rt rd shamt
  | .jumpRegister rs rt rd shamt => .register .jumpRegister rs rt rd shamt
  | .moveFromHi rs rt rd shamt => .register .moveFromHi rs rt rd shamt
  | .moveFromLo rs rt rd shamt => .register .moveFromLo rs rt rd shamt
  | .multiply rs rt rd shamt => .register .multiply rs rt rd shamt
  | .multiplyUnsigned rs rt rd shamt => .register .multiplyUnsigned rs rt rd shamt
  | .divide rs rt rd shamt => .register .divide rs rt rd shamt
  | .divideUnsigned rs rt rd shamt => .register .divideUnsigned rs rt rd shamt
  | .add rs rt rd shamt => .register .add rs rt rd shamt
  | .addUnsigned rs rt rd shamt => .register .addUnsigned rs rt rd shamt
  | .subtract rs rt rd shamt => .register .subtract rs rt rd shamt
  | .subtractUnsigned rs rt rd shamt => .register .subtractUnsigned rs rt rd shamt
  | .and rs rt rd shamt => .register .and rs rt rd shamt
  | .or rs rt rd shamt => .register .or rs rt rd shamt
  | .xor rs rt rd shamt => .register .xor rs rt rd shamt
  | .nor rs rt rd shamt => .register .nor rs rt rd shamt
  | .setLessThan rs rt rd shamt => .register .setLessThan rs rt rd shamt
  | .setLessThanUnsigned rs rt rd shamt => .register .setLessThanUnsigned rs rt rd shamt
  | .jump target => .jump .jump target
  | .jumpAndLink target => .jump .jumpAndLink target
  | .branchEqual rs rt imm => .immediate .branchEqual rs rt imm
  | .branchNotEqual rs rt imm => .immediate .branchNotEqual rs rt imm
  | .addImmediate rs rt imm => .immediate .addImmediate rs rt imm
  | .addImmediateUnsigned rs rt imm => .immediate .addImmediateUnsigned rs rt imm
  | .setLessThanImmediate rs rt imm => .immediate .setLessThanImmediate rs rt imm
  | .setLessThanImmediateUnsigned rs rt imm => .immediate .setLessThanImmediateUnsigned rs rt imm
  | .andImmediate rs rt imm => .immediate .andImmediate rs rt imm
  | .orImmediate rs rt imm => .immediate .orImmediate rs rt imm
  | .loadUpperImmediate rs rt imm => .immediate .loadUpperImmediate rs rt imm
  | .loadWord rs rt imm => .immediate .loadWord rs rt imm
  | .loadByteUnsigned rs rt imm => .immediate .loadByteUnsigned rs rt imm
  | .loadHalfwordUnsigned rs rt imm => .immediate .loadHalfwordUnsigned rs rt imm
  | .storeByte rs rt imm => .immediate .storeByte rs rt imm
  | .storeHalfword rs rt imm => .immediate .storeHalfword rs rt imm
  | .storeWord rs rt imm => .immediate .storeWord rs rt imm

/-- The row that a decoded value belongs to. -/
def Instruction.toInstr : Instruction → Instr
  | .register .shiftLeftLogical rs rt rd shamt => .shiftLeftLogical rs rt rd shamt
  | .register .shiftRightLogical rs rt rd shamt => .shiftRightLogical rs rt rd shamt
  | .register .shiftRightArithmetic rs rt rd shamt => .shiftRightArithmetic rs rt rd shamt
  | .register .jumpRegister rs rt rd shamt => .jumpRegister rs rt rd shamt
  | .register .moveFromHi rs rt rd shamt => .moveFromHi rs rt rd shamt
  | .register .moveFromLo rs rt rd shamt => .moveFromLo rs rt rd shamt
  | .register .multiply rs rt rd shamt => .multiply rs rt rd shamt
  | .register .multiplyUnsigned rs rt rd shamt => .multiplyUnsigned rs rt rd shamt
  | .register .divide rs rt rd shamt => .divide rs rt rd shamt
  | .register .divideUnsigned rs rt rd shamt => .divideUnsigned rs rt rd shamt
  | .register .add rs rt rd shamt => .add rs rt rd shamt
  | .register .addUnsigned rs rt rd shamt => .addUnsigned rs rt rd shamt
  | .register .subtract rs rt rd shamt => .subtract rs rt rd shamt
  | .register .subtractUnsigned rs rt rd shamt => .subtractUnsigned rs rt rd shamt
  | .register .and rs rt rd shamt => .and rs rt rd shamt
  | .register .or rs rt rd shamt => .or rs rt rd shamt
  | .register .xor rs rt rd shamt => .xor rs rt rd shamt
  | .register .nor rs rt rd shamt => .nor rs rt rd shamt
  | .register .setLessThan rs rt rd shamt => .setLessThan rs rt rd shamt
  | .register .setLessThanUnsigned rs rt rd shamt => .setLessThanUnsigned rs rt rd shamt
  | .jump .jump target => .jump target
  | .jump .jumpAndLink target => .jumpAndLink target
  | .immediate .branchEqual rs rt imm => .branchEqual rs rt imm
  | .immediate .branchNotEqual rs rt imm => .branchNotEqual rs rt imm
  | .immediate .addImmediate rs rt imm => .addImmediate rs rt imm
  | .immediate .addImmediateUnsigned rs rt imm => .addImmediateUnsigned rs rt imm
  | .immediate .setLessThanImmediate rs rt imm => .setLessThanImmediate rs rt imm
  | .immediate .setLessThanImmediateUnsigned rs rt imm => .setLessThanImmediateUnsigned rs rt imm
  | .immediate .andImmediate rs rt imm => .andImmediate rs rt imm
  | .immediate .orImmediate rs rt imm => .orImmediate rs rt imm
  | .immediate .loadUpperImmediate rs rt imm => .loadUpperImmediate rs rt imm
  | .immediate .loadWord rs rt imm => .loadWord rs rt imm
  | .immediate .loadByteUnsigned rs rt imm => .loadByteUnsigned rs rt imm
  | .immediate .loadHalfwordUnsigned rs rt imm => .loadHalfwordUnsigned rs rt imm
  | .immediate .storeByte rs rt imm => .storeByte rs rt imm
  | .immediate .storeHalfword rs rt imm => .storeHalfword rs rt imm
  | .immediate .storeWord rs rt imm => .storeWord rs rt imm

/-- The instruction a word names, or the error that rejects it: `decode` with the result named by its row. -/
def decodeInstr (w : Word) : OrError Instr :=
  match decode w with
  | .value i => .value i.toInstr
  | .error e => .error e

/-- The raw word that a row of spec/opcode_table.json stands for: the block takes a number, not bytes, so there is no byte order
to lay out (R41). Bits above `nbits` are zero. -/
def tableWord (nbits w : Nat) : Word := BitVec.ofNat 32 (w % 2 ^ nbits)

/-- The instruction the decoder reads from a table word; none where it answers an error. -/
def decodeTableWord (nbits w : Nat) : Option Instr :=
  match decodeInstr (tableWord nbits w) with
  | .value i => some i
  | .error _ => none

/-! ### Match and mask of each row (R72) -/

/-- The name of an operation: the tag that tells the 37 rows apart. -/
inductive Operation where
  | funct (f : FunctTag)
  | jump (j : JumpTag)
  | imm (t : ImmTag)
  deriving DecidableEq, Repr

/-- The operation a decoded instruction carries. -/
def Instruction.operation : Instruction → Operation
  | .register f _ _ _ _ => .funct f
  | .jump j _ => .jump j
  | .immediate t _ _ _ => .imm t

/-- The row's `mask` (R72). -/
def Operation.mask : Operation → Word
  | .funct _ => 0xFC00003F
  | .jump _ => 0xFC000000
  | .imm _ => 0xFC000000

/-- The row's `match` (R72). -/
def Operation.matchBits : Operation → Word
  | .funct .shiftLeftLogical => 0x00000000
  | .funct .shiftRightLogical => 0x00000002
  | .funct .shiftRightArithmetic => 0x00000003
  | .funct .jumpRegister => 0x00000008
  | .funct .moveFromHi => 0x00000010
  | .funct .moveFromLo => 0x00000012
  | .funct .multiply => 0x00000018
  | .funct .multiplyUnsigned => 0x00000019
  | .funct .divide => 0x0000001A
  | .funct .divideUnsigned => 0x0000001B
  | .funct .add => 0x00000020
  | .funct .addUnsigned => 0x00000021
  | .funct .subtract => 0x00000022
  | .funct .subtractUnsigned => 0x00000023
  | .funct .and => 0x00000024
  | .funct .or => 0x00000025
  | .funct .xor => 0x00000026
  | .funct .nor => 0x00000027
  | .funct .setLessThan => 0x0000002A
  | .funct .setLessThanUnsigned => 0x0000002B
  | .jump .jump => 0x08000000
  | .jump .jumpAndLink => 0x0C000000
  | .imm .branchEqual => 0x10000000
  | .imm .branchNotEqual => 0x14000000
  | .imm .addImmediate => 0x20000000
  | .imm .addImmediateUnsigned => 0x24000000
  | .imm .setLessThanImmediate => 0x28000000
  | .imm .setLessThanImmediateUnsigned => 0x2C000000
  | .imm .andImmediate => 0x30000000
  | .imm .orImmediate => 0x34000000
  | .imm .loadUpperImmediate => 0x3C000000
  | .imm .loadWord => 0x8C000000
  | .imm .loadByteUnsigned => 0x90000000
  | .imm .loadHalfwordUnsigned => 0x94000000
  | .imm .storeByte => 0xA0000000
  | .imm .storeHalfword => 0xA4000000
  | .imm .storeWord => 0xAC000000

/-- The 37 rows, in the table's order. -/
def Operation.all : List Operation :=
  [.funct .shiftLeftLogical,
   .funct .shiftRightLogical,
   .funct .shiftRightArithmetic,
   .funct .jumpRegister,
   .funct .moveFromHi,
   .funct .moveFromLo,
   .funct .multiply,
   .funct .multiplyUnsigned,
   .funct .divide,
   .funct .divideUnsigned,
   .funct .add,
   .funct .addUnsigned,
   .funct .subtract,
   .funct .subtractUnsigned,
   .funct .and,
   .funct .or,
   .funct .xor,
   .funct .nor,
   .funct .setLessThan,
   .funct .setLessThanUnsigned,
   .jump .jump,
   .jump .jumpAndLink,
   .imm .branchEqual,
   .imm .branchNotEqual,
   .imm .addImmediate,
   .imm .addImmediateUnsigned,
   .imm .setLessThanImmediate,
   .imm .setLessThanImmediateUnsigned,
   .imm .andImmediate,
   .imm .orImmediate,
   .imm .loadUpperImmediate,
   .imm .loadWord,
   .imm .loadByteUnsigned,
   .imm .loadHalfwordUnsigned,
   .imm .storeByte,
   .imm .storeHalfword,
   .imm .storeWord]

/-! ### The encoder (R62 to R64, R79)

The block has no encoder (R6); this inverse exists so that words can be built and checked. The codes are written a second time here,
from the maps of R70 and R71 read from tag to code: they are also what the tag ports carry (spec/92_eei_decisions.md D3). -/

/-- The function code that selects a register operation (R71). -/
def FunctTag.code : FunctTag → Code
  | .shiftLeftLogical => 0x00
  | .shiftRightLogical => 0x02
  | .shiftRightArithmetic => 0x03
  | .jumpRegister => 0x08
  | .moveFromHi => 0x10
  | .moveFromLo => 0x12
  | .multiply => 0x18
  | .multiplyUnsigned => 0x19
  | .divide => 0x1A
  | .divideUnsigned => 0x1B
  | .add => 0x20
  | .addUnsigned => 0x21
  | .subtract => 0x22
  | .subtractUnsigned => 0x23
  | .and => 0x24
  | .or => 0x25
  | .xor => 0x26
  | .nor => 0x27
  | .setLessThan => 0x2A
  | .setLessThanUnsigned => 0x2B

/-- The opcode that selects a jump (R70). -/
def JumpTag.code : JumpTag → Code
  | .jump => 0x02
  | .jumpAndLink => 0x03

/-- The opcode that selects an immediate operation (R70). -/
def ImmTag.code : ImmTag → Code
  | .branchEqual => 0x04
  | .branchNotEqual => 0x05
  | .addImmediate => 0x08
  | .addImmediateUnsigned => 0x09
  | .setLessThanImmediate => 0x0A
  | .setLessThanImmediateUnsigned => 0x0B
  | .andImmediate => 0x0C
  | .orImmediate => 0x0D
  | .loadUpperImmediate => 0x0F
  | .loadWord => 0x23
  | .loadByteUnsigned => 0x24
  | .loadHalfwordUnsigned => 0x25
  | .storeByte => 0x28
  | .storeHalfword => 0x29
  | .storeWord => 0x2B

/-- The opcode that selects a member of `OpTag` (R70). -/
def OpTag.code : OpTag → Code
  | .registerTrigger => 0x00
  | .operation t => t.code

/-- Format R (R62): `000000 sssss ttttt ddddd aaaaa ffffff`. -/
def encodeRegister (f : FunctTag) (rs rt rd : RegIndex) (shamt : ShiftAmount) : Word :=
  OpTag.registerTrigger.code ++ rs ++ rt ++ rd ++ shamt ++ f.code

/-- Format J (R63): `oooooo` and the low 26 bits of the payload. -/
def encodeJump (j : JumpTag) (target : Word) : Word := j.code ++ target.setWidth 26

/-- Format I (R64): `oooooo sssss ttttt` and the 16-bit two's complement pattern of `imm`. -/
def encodeImmediate (t : ImmTag) (rs rt : RegIndex) (imm : Int) : Word :=
  t.code ++ rs ++ rt ++ BitVec.ofInt 16 imm

/-- The word of a decoded value (R79). -/
def encodeInstruction : Instruction → Word
  | .register f rs rt rd shamt => encodeRegister f rs rt rd shamt
  | .jump j target => encodeJump j target
  | .immediate t rs rt imm => encodeImmediate t rs rt imm

/-- The word of an instruction (R79). -/
def encode (i : Instr) : Word := encodeInstruction i.toInstruction

end Sys2Proof
end

