-- ==== Sys2Proof/Machine/State.lean ====
section
/-! DEFINITION. The state of one copy of the block, as the host's interface needs it (notes/assumptions/1.md).
THE BLOCK ITSELF HAS NO STATE (spec/10_state.md R20 to R24): no register, no program counter, no flag, no memory. What `State`
holds is the block's interface, which the spec gives widths and meanings (R34): the value on its input port, the words the caller
will present (spec/00_scope.md R16; spec/95_test_vectors.md section 9), its ten output ports, and the results the caller has
received (R31). That none of it is carried into a later result is a statement about the model, not an assumption of it. -/

namespace Sys2Proof.Machine

/-- The ten output ports (R34), each of the width R34 gives it. -/
structure Ports where
  /-- 0 `OK`, 1 `UnknownOpcode`, 2 `UnknownFunction` (R140). -/
  status : BitVec 2
  /-- 0 none, 1 Register, 2 Jump, 3 Immediate (R141). -/
  form : BitVec 2
  /-- The opcode-level tag as its opcode value (R142). -/
  opTag : Code
  /-- The register-operation tag as its function code (R143). -/
  functTag : Code
  /-- `source_register` (R144). -/
  rs : RegIndex
  /-- `target_register` (R144). -/
  rt : RegIndex
  /-- `destination_register` (R144). -/
  rd : RegIndex
  /-- `shift_amount` (R144). -/
  shamt : ShiftAmount
  /-- `immediate` as a 16-bit two's complement pattern (R145). -/
  imm : BitVec 16
  /-- `target_address`, bits 31 to 26 zero (R146). -/
  target : Word
  deriving DecidableEq, Repr

/-- One copy of the block with its caller. -/
structure State where
  /-- The value on the input port `word` (R25, R34). -/
  word : Word
  /-- The words the caller will present, the next one first. -/
  pending : List Word
  /-- The output ports (R34). -/
  out : Ports
  /-- The results returned to the caller, the oldest first; the caller owns them (R31). -/
  returned : List DecodeResult
  deriving DecidableEq, Repr

/-- Why the machine stops with a fault: never. The block has no trap, fault or exception beside the two decode errors (R243), and
those are returned values after which the next word is decoded (R244, R245, R248). No step raises a fault: the type is empty. -/
inductive Fault where
  deriving DecidableEq, Repr

/-- Why the machine refuses an instruction. -/
inductive Refusal where
  /-- An instruction without a meaning, by its mnemonic. Raised by `exec`'s refused arms only: there are none. Safe. -/
  | notModelled (mnemonic : String)
  deriving DecidableEq, Repr

/-- The machine after reset. Nothing of the block is reset (R36, R270): the caller has presented no word and received no result,
the input port holds `Config.initialWord` (DESIGN CHOICE, notes/assumptions/2.md), and the outputs are the decode of that value
(R36: the all-zero word is `Register(ShiftLeftLogical, 0, 0, 0, 0)`, R75). -/
def State.reset : State where
  word := Config.initialWord
  pending := []
  out :=
    { status := 0, form := 1, opTag := 0x00, functTag := 0x00, rs := 0, rt := 0, rd := 0, shamt := 0, imm := 0, target := 0 }
  returned := []

end Sys2Proof.Machine
end

