-- ==== Sys2Proof/Machine/Flags.lean ====
section
/-! DEFINITION. The two ports that say what a result is: `status` and `form` (spec/42_instruction_builder.md R140, R141).
The block has no flag (spec/10_state.md R23): these are computed from each result anew. The numbers are the spec's own choice
(spec/92_eei_decisions.md D4, D5). -/

namespace Sys2Proof.Machine

/-- The code of an error (R240). -/
def errorStatus : DecodeError → BitVec 2
  | .unknownOpcode => 1
  | .unknownFunction => 2

/-- R140; the value 3 is never driven. -/
def statusPort : DecodeResult → BitVec 2
  | .value _ => 0
  | .error e => errorStatus e

/-- R141; 0 exactly when `status` is not 0. -/
def formPort : DecodeResult → BitVec 2
  | .value (.register _ _ _ _ _) => 1
  | .value (.jump _ _) => 2
  | .value (.immediate _ _ _ _) => 3
  | .error _ => 0

end Sys2Proof.Machine
end

