-- ==== Sys2Proof/Machine/Operands.lean ====
section
/-! DEFINITION. The field multiplexer: which tag and field reaches each output port (spec/42_instruction_builder.md R136, R142 to
R147). Every port the result does not carry is 0 (R147; the spec's own choice, spec/92_eei_decisions.md D6). -/

namespace Sys2Proof.Machine

/-- R142: the opcode that selects the opcode-level tag. -/
def opTagPort : DecodeResult → Code
  | .value (.register _ _ _ _ _) => OpTag.registerTrigger.code
  | .value (.jump j _) => j.code
  | .value (.immediate t _ _ _) => t.code
  | .error _ => 0

/-- R143: the function code that selects the register-operation tag. -/
def functTagPort : DecodeResult → Code
  | .value (.register f _ _ _ _) => f.code
  | .value (.jump _ _) => 0
  | .value (.immediate _ _ _ _) => 0
  | .error _ => 0

/-- R144. -/
def rsPort : DecodeResult → RegIndex
  | .value (.register _ rs _ _ _) => rs
  | .value (.jump _ _) => 0
  | .value (.immediate _ rs _ _) => rs
  | .error _ => 0

/-- R144. -/
def rtPort : DecodeResult → RegIndex
  | .value (.register _ _ rt _ _) => rt
  | .value (.jump _ _) => 0
  | .value (.immediate _ _ rt _) => rt
  | .error _ => 0

/-- R144. -/
def rdPort : DecodeResult → RegIndex
  | .value (.register _ _ _ rd _) => rd
  | .value (.jump _ _) => 0
  | .value (.immediate _ _ _ _) => 0
  | .error _ => 0

/-- R144. -/
def shamtPort : DecodeResult → ShiftAmount
  | .value (.register _ _ _ _ shamt) => shamt
  | .value (.jump _ _) => 0
  | .value (.immediate _ _ _ _) => 0
  | .error _ => 0

/-- R145: the two's complement pattern of the signed immediate; 16 bits, no widening. -/
def immPort : DecodeResult → BitVec 16
  | .value (.register _ _ _ _ _) => 0
  | .value (.jump _ _) => 0
  | .value (.immediate _ _ _ imm) => BitVec.ofInt 16 imm
  | .error _ => 0

/-- R146. -/
def targetPort : DecodeResult → Word
  | .value (.register _ _ _ _ _) => 0
  | .value (.jump _ target) => target
  | .value (.immediate _ _ _ _) => 0
  | .error _ => 0

end Sys2Proof.Machine
end

