-- ==== Sys2Proof/Machine/Ops.lean ====
section
/-! DEFINITION. The named operations that the meanings and the step call: presenting a word, driving the ports, returning a result.
There is no register and no memory to read or write (spec/10_state.md R21, R24; spec/20_memory.md R40), and no trap to enter or to
return from: `raise` is the one shared operation for both decode errors (spec/60_exceptions.md R244, R248). -/

namespace Sys2Proof.Machine

/-- The ten ports for a result (R140 to R147). -/
def Ports.ofResult (r : DecodeResult) : Ports where
  status := statusPort r
  form := formPort r
  opTag := opTagPort r
  functTag := functTagPort r
  rs := rsPort r
  rt := rtPort r
  rd := rdPort r
  shamt := shamtPort r
  imm := immPort r
  target := targetPort r

/-- The result that ten port values stand for (R147: "can be read back uniquely").
None for the values the block never drives (spec/93_implementation_defined.md U6). -/
def Ports.readBack (p : Ports) : Option DecodeResult :=
  if p.status = 0 then
    if p.form = 1 then
      match classifyFunction p.functTag with
      | .value f => some (.value (.register f p.rs p.rt p.rd p.shamt))
      | .error _ => none
    else if p.form = 2 then
      match classifyOpcode p.opTag with
      | .value (.jumpClass j) => some (.value (.jump j p.target))
      | .value .trigger => none
      | .value (.immClass _) => none
      | .error _ => none
    else if p.form = 3 then
      match classifyOpcode p.opTag with
      | .value (.immClass t) => some (.value (.immediate t p.rs p.rt p.imm.toInt))
      | .value .trigger => none
      | .value (.jumpClass _) => none
      | .error _ => none
    else none
  else if p.form = 0 then
    if p.status = 1 then some (.error .unknownOpcode)
    else if p.status = 2 then some (.error .unknownFunction)
    else none
  else none

/-- The caller drives its next word on `word` (R279). With nothing pending it holds the word that is there (R36, R148). -/
def State.presentNext (s : State) : State :=
  match s.pending with
  | [] => s
  | w :: rest => { s with word := w, pending := rest }

/-- The caller puts one more word before all it was going to present. -/
def State.presentWord (s : State) (w : Word) : State := { s with pending := w :: s.pending }

/-- The evaluation yields `r` (R13, `result <- v`): the ports carry it, and it is returned to the caller (R31). -/
def State.answer (r : DecodeResult) (s : State) : State :=
  { s with out := Ports.ofResult r, returned := s.returned ++ [r] }

/-- `raise` (R13, R244): the result of the evaluation is the error, and the block is ready for the next word (R245). Nothing is
saved, no mode changes and control goes nowhere: a next state. -/
def raise (e : DecodeError) (s : State) : Host.Outcome State Fault Refusal := .next (s.answer (.error e))

/-- The result of a register operation (R131, R160): all four operand fields are delivered. -/
def deliverRegister (f : FunctTag) (rs rt rd : RegIndex) (shamt : ShiftAmount) (s : State) :
    Host.Outcome State Fault Refusal :=
  .next (s.answer (.value (.register f rs rt rd shamt)))

/-- The result of a jump (R132, R190): the raw payload, no target computation (R192). -/
def deliverJump (j : JumpTag) (target : Word) (s : State) : Host.Outcome State Fault Refusal :=
  .next (s.answer (.value (.jump j target)))

/-- The result of an immediate operation (R133, R200): the raw signed immediate for all 15 (R201, R202). -/
def deliverImmediate (t : ImmTag) (rs rt : RegIndex) (imm : Int) (s : State) : Host.Outcome State Fault Refusal :=
  .next (s.answer (.value (.immediate t rs rt imm)))

end Sys2Proof.Machine
end

