-- ==== Sys2Proof/Machine/ImmediateOps.lean ====
section
/-! DEFINITION. The branches, the arithmetic and logical immediates and `LoadUpperImmediate` (spec/45_immediate_alu_branch_ops.md R200 to
R211). The immediate is delivered raw (R201) and signed whatever the opcode (R202). -/

namespace Sys2Proof.Machine

/-- `BranchEqual` (R203, opcode 0x04). -/
def execBranchEqual (rs rt : RegIndex) (imm : Int) (s : State) : Host.Outcome State Fault Refusal :=
  deliverImmediate .branchEqual rs rt imm s

/-- `BranchNotEqual` (R204, opcode 0x05). -/
def execBranchNotEqual (rs rt : RegIndex) (imm : Int) (s : State) : Host.Outcome State Fault Refusal :=
  deliverImmediate .branchNotEqual rs rt imm s

/-- `AddImmediate` (R205, opcode 0x08). -/
def execAddImmediate (rs rt : RegIndex) (imm : Int) (s : State) : Host.Outcome State Fault Refusal :=
  deliverImmediate .addImmediate rs rt imm s

/-- `AddImmediateUnsigned` (R206, opcode 0x09). -/
def execAddImmediateUnsigned (rs rt : RegIndex) (imm : Int) (s : State) : Host.Outcome State Fault Refusal :=
  deliverImmediate .addImmediateUnsigned rs rt imm s

/-- `SetLessThanImmediate` (R207, opcode 0x0A). -/
def execSetLessThanImmediate (rs rt : RegIndex) (imm : Int) (s : State) : Host.Outcome State Fault Refusal :=
  deliverImmediate .setLessThanImmediate rs rt imm s

/-- `SetLessThanImmediateUnsigned` (R208, opcode 0x0B). -/
def execSetLessThanImmediateUnsigned (rs rt : RegIndex) (imm : Int) (s : State) : Host.Outcome State Fault Refusal :=
  deliverImmediate .setLessThanImmediateUnsigned rs rt imm s

/-- `AndImmediate` (R209, opcode 0x0C). -/
def execAndImmediate (rs rt : RegIndex) (imm : Int) (s : State) : Host.Outcome State Fault Refusal :=
  deliverImmediate .andImmediate rs rt imm s

/-- `OrImmediate` (R210, opcode 0x0D). -/
def execOrImmediate (rs rt : RegIndex) (imm : Int) (s : State) : Host.Outcome State Fault Refusal :=
  deliverImmediate .orImmediate rs rt imm s

/-- `LoadUpperImmediate` (R211, opcode 0x0F). -/
def execLoadUpperImmediate (rs rt : RegIndex) (imm : Int) (s : State) : Host.Outcome State Fault Refusal :=
  deliverImmediate .loadUpperImmediate rs rt imm s

end Sys2Proof.Machine
end

