-- ==== Sys2Proof/Machine/JumpOps.lean ====
section
/-! DEFINITION. The 2 jumps (spec/44_jump_ops.md R190 to R194). The block transfers no control and writes no link register: it delivers
the raw payload (R192). -/

namespace Sys2Proof.Machine

/-- `Jump` (R193, opcode 0x02). -/
def execJump (target : Word) (s : State) : Host.Outcome State Fault Refusal :=
  deliverJump .jump target s

/-- `JumpAndLink` (R194, opcode 0x03). -/
def execJumpAndLink (target : Word) (s : State) : Host.Outcome State Fault Refusal :=
  deliverJump .jumpAndLink target s

end Sys2Proof.Machine
end

