-- ==== Sys2Proof/Machine/LoadStoreOps.lean ====
section
/-! DEFINITION. The loads and stores (spec/46_immediate_load_store_ops.md R220 to R227). No memory is read or written (R220) and no
effective address is formed (R221): the three raw fields are delivered. -/

namespace Sys2Proof.Machine

/-- `LoadWord` (R222, opcode 0x23). -/
def execLoadWord (rs rt : RegIndex) (imm : Int) (s : State) : Host.Outcome State Fault Refusal :=
  deliverImmediate .loadWord rs rt imm s

/-- `LoadByteUnsigned` (R223, opcode 0x24). -/
def execLoadByteUnsigned (rs rt : RegIndex) (imm : Int) (s : State) : Host.Outcome State Fault Refusal :=
  deliverImmediate .loadByteUnsigned rs rt imm s

/-- `LoadHalfwordUnsigned` (R224, opcode 0x25). -/
def execLoadHalfwordUnsigned (rs rt : RegIndex) (imm : Int) (s : State) : Host.Outcome State Fault Refusal :=
  deliverImmediate .loadHalfwordUnsigned rs rt imm s

/-- `StoreByte` (R225, opcode 0x28). -/
def execStoreByte (rs rt : RegIndex) (imm : Int) (s : State) : Host.Outcome State Fault Refusal :=
  deliverImmediate .storeByte rs rt imm s

/-- `StoreHalfword` (R226, opcode 0x29). -/
def execStoreHalfword (rs rt : RegIndex) (imm : Int) (s : State) : Host.Outcome State Fault Refusal :=
  deliverImmediate .storeHalfword rs rt imm s

/-- `StoreWord` (R227, opcode 0x2B). -/
def execStoreWord (rs rt : RegIndex) (imm : Int) (s : State) : Host.Outcome State Fault Refusal :=
  deliverImmediate .storeWord rs rt imm s

end Sys2Proof.Machine
end

