-- ==== Sys2Proof/Machine/RegisterOps.lean ====
section
/-! DEFINITION. The 20 register operations (spec/43_register_ops.md R160 to R181). What an instruction of this block does is the result
it decodes to; it reads and writes no register, memory or program counter, and does no arithmetic (spec/00_scope.md R6, R102). -/

namespace Sys2Proof.Machine

/-- `ShiftLeftLogical` (R162, function code 0x00). -/
def execShiftLeftLogical (rs rt rd : RegIndex) (shamt : ShiftAmount) (s : State) : Host.Outcome State Fault Refusal :=
  deliverRegister .shiftLeftLogical rs rt rd shamt s

/-- `ShiftRightLogical` (R163, function code 0x02). -/
def execShiftRightLogical (rs rt rd : RegIndex) (shamt : ShiftAmount) (s : State) : Host.Outcome State Fault Refusal :=
  deliverRegister .shiftRightLogical rs rt rd shamt s

/-- `ShiftRightArithmetic` (R164, function code 0x03). -/
def execShiftRightArithmetic (rs rt rd : RegIndex) (shamt : ShiftAmount) (s : State) : Host.Outcome State Fault Refusal :=
  deliverRegister .shiftRightArithmetic rs rt rd shamt s

/-- `JumpRegister` (R165, function code 0x08). -/
def execJumpRegister (rs rt rd : RegIndex) (shamt : ShiftAmount) (s : State) : Host.Outcome State Fault Refusal :=
  deliverRegister .jumpRegister rs rt rd shamt s

/-- `MoveFromHi` (R166, function code 0x10). -/
def execMoveFromHi (rs rt rd : RegIndex) (shamt : ShiftAmount) (s : State) : Host.Outcome State Fault Refusal :=
  deliverRegister .moveFromHi rs rt rd shamt s

/-- `MoveFromLo` (R167, function code 0x12). -/
def execMoveFromLo (rs rt rd : RegIndex) (shamt : ShiftAmount) (s : State) : Host.Outcome State Fault Refusal :=
  deliverRegister .moveFromLo rs rt rd shamt s

/-- `Multiply` (R168, function code 0x18). -/
def execMultiply (rs rt rd : RegIndex) (shamt : ShiftAmount) (s : State) : Host.Outcome State Fault Refusal :=
  deliverRegister .multiply rs rt rd shamt s

/-- `MultiplyUnsigned` (R169, function code 0x19). -/
def execMultiplyUnsigned (rs rt rd : RegIndex) (shamt : ShiftAmount) (s : State) : Host.Outcome State Fault Refusal :=
  deliverRegister .multiplyUnsigned rs rt rd shamt s

/-- `Divide` (R170, function code 0x1A). -/
def execDivide (rs rt rd : RegIndex) (shamt : ShiftAmount) (s : State) : Host.Outcome State Fault Refusal :=
  deliverRegister .divide rs rt rd shamt s

/-- `DivideUnsigned` (R171, function code 0x1B). -/
def execDivideUnsigned (rs rt rd : RegIndex) (shamt : ShiftAmount) (s : State) : Host.Outcome State Fault Refusal :=
  deliverRegister .divideUnsigned rs rt rd shamt s

/-- `Add` (R172, function code 0x20). -/
def execAdd (rs rt rd : RegIndex) (shamt : ShiftAmount) (s : State) : Host.Outcome State Fault Refusal :=
  deliverRegister .add rs rt rd shamt s

/-- `AddUnsigned` (R173, function code 0x21). -/
def execAddUnsigned (rs rt rd : RegIndex) (shamt : ShiftAmount) (s : State) : Host.Outcome State Fault Refusal :=
  deliverRegister .addUnsigned rs rt rd shamt s

/-- `Subtract` (R174, function code 0x22). -/
def execSubtract (rs rt rd : RegIndex) (shamt : ShiftAmount) (s : State) : Host.Outcome State Fault Refusal :=
  deliverRegister .subtract rs rt rd shamt s

/-- `SubtractUnsigned` (R175, function code 0x23). -/
def execSubtractUnsigned (rs rt rd : RegIndex) (shamt : ShiftAmount) (s : State) : Host.Outcome State Fault Refusal :=
  deliverRegister .subtractUnsigned rs rt rd shamt s

/-- `And` (R176, function code 0x24). -/
def execAnd (rs rt rd : RegIndex) (shamt : ShiftAmount) (s : State) : Host.Outcome State Fault Refusal :=
  deliverRegister .and rs rt rd shamt s

/-- `Or` (R177, function code 0x25). -/
def execOr (rs rt rd : RegIndex) (shamt : ShiftAmount) (s : State) : Host.Outcome State Fault Refusal :=
  deliverRegister .or rs rt rd shamt s

/-- `Xor` (R178, function code 0x26). -/
def execXor (rs rt rd : RegIndex) (shamt : ShiftAmount) (s : State) : Host.Outcome State Fault Refusal :=
  deliverRegister .xor rs rt rd shamt s

/-- `Nor` (R179, function code 0x27). -/
def execNor (rs rt rd : RegIndex) (shamt : ShiftAmount) (s : State) : Host.Outcome State Fault Refusal :=
  deliverRegister .nor rs rt rd shamt s

/-- `SetLessThan` (R180, function code 0x2A). -/
def execSetLessThan (rs rt rd : RegIndex) (shamt : ShiftAmount) (s : State) : Host.Outcome State Fault Refusal :=
  deliverRegister .setLessThan rs rt rd shamt s

/-- `SetLessThanUnsigned` (R181, function code 0x2B). -/
def execSetLessThanUnsigned (rs rt rd : RegIndex) (shamt : ShiftAmount) (s : State) : Host.Outcome State Fault Refusal :=
  deliverRegister .setLessThanUnsigned rs rt rd shamt s

end Sys2Proof.Machine
end

