-- ==== Sys2Proof/Machine/Dispatch.lean ====
section
/-! DEFINITION. One arm per instruction, in the order of spec/opcode_table.json. -/

namespace Sys2Proof.Machine

def exec (i : Instr) (s : State) : Host.Outcome State Fault Refusal :=
  match i with
  | .shiftLeftLogical rs rt rd shamt => Sys2Proof.Machine.execShiftLeftLogical rs rt rd shamt s
  | .shiftRightLogical rs rt rd shamt => Sys2Proof.Machine.execShiftRightLogical rs rt rd shamt s
  | .shiftRightArithmetic rs rt rd shamt => Sys2Proof.Machine.execShiftRightArithmetic rs rt rd shamt s
  | .jumpRegister rs rt rd shamt => Sys2Proof.Machine.execJumpRegister rs rt rd shamt s
  | .moveFromHi rs rt rd shamt => Sys2Proof.Machine.execMoveFromHi rs rt rd shamt s
  | .moveFromLo rs rt rd shamt => Sys2Proof.Machine.execMoveFromLo rs rt rd shamt s
  | .multiply rs rt rd shamt => Sys2Proof.Machine.execMultiply rs rt rd shamt s
  | .multiplyUnsigned rs rt rd shamt => Sys2Proof.Machine.execMultiplyUnsigned rs rt rd shamt s
  | .divide rs rt rd shamt => Sys2Proof.Machine.execDivide rs rt rd shamt s
  | .divideUnsigned rs rt rd shamt => Sys2Proof.Machine.execDivideUnsigned rs rt rd shamt s
  | .add rs rt rd shamt => Sys2Proof.Machine.execAdd rs rt rd shamt s
  | .addUnsigned rs rt rd shamt => Sys2Proof.Machine.execAddUnsigned rs rt rd shamt s
  | .subtract rs rt rd shamt => Sys2Proof.Machine.execSubtract rs rt rd shamt s
  | .subtractUnsigned rs rt rd shamt => Sys2Proof.Machine.execSubtractUnsigned rs rt rd shamt s
  | .and rs rt rd shamt => Sys2Proof.Machine.execAnd rs rt rd shamt s
  | .or rs rt rd shamt => Sys2Proof.Machine.execOr rs rt rd shamt s
  | .xor rs rt rd shamt => Sys2Proof.Machine.execXor rs rt rd shamt s
  | .nor rs rt rd shamt => Sys2Proof.Machine.execNor rs rt rd shamt s
  | .setLessThan rs rt rd shamt => Sys2Proof.Machine.execSetLessThan rs rt rd shamt s
  | .setLessThanUnsigned rs rt rd shamt => Sys2Proof.Machine.execSetLessThanUnsigned rs rt rd shamt s
  | .jump target => Sys2Proof.Machine.execJump target s
  | .jumpAndLink target => Sys2Proof.Machine.execJumpAndLink target s
  | .branchEqual rs rt imm => Sys2Proof.Machine.execBranchEqual rs rt imm s
  | .branchNotEqual rs rt imm => Sys2Proof.Machine.execBranchNotEqual rs rt imm s
  | .addImmediate rs rt imm => Sys2Proof.Machine.execAddImmediate rs rt imm s
  | .addImmediateUnsigned rs rt imm => Sys2Proof.Machine.execAddImmediateUnsigned rs rt imm s
  | .setLessThanImmediate rs rt imm => Sys2Proof.Machine.execSetLessThanImmediate rs rt imm s
  | .setLessThanImmediateUnsigned rs rt imm => Sys2Proof.Machine.execSetLessThanImmediateUnsigned rs rt imm s
  | .andImmediate rs rt imm => Sys2Proof.Machine.execAndImmediate rs rt imm s
  | .orImmediate rs rt imm => Sys2Proof.Machine.execOrImmediate rs rt imm s
  | .loadUpperImmediate rs rt imm => Sys2Proof.Machine.execLoadUpperImmediate rs rt imm s
  | .loadWord rs rt imm => Sys2Proof.Machine.execLoadWord rs rt imm s
  | .loadByteUnsigned rs rt imm => Sys2Proof.Machine.execLoadByteUnsigned rs rt imm s
  | .loadHalfwordUnsigned rs rt imm => Sys2Proof.Machine.execLoadHalfwordUnsigned rs rt imm s
  | .storeByte rs rt imm => Sys2Proof.Machine.execStoreByte rs rt imm s
  | .storeHalfword rs rt imm => Sys2Proof.Machine.execStoreHalfword rs rt imm s
  | .storeWord rs rt imm => Sys2Proof.Machine.execStoreWord rs rt imm s

end Sys2Proof.Machine
end

