-- ==== Sys2Proof/Machine/Evaluation.lean ====
section
/-! DEFINITION. One evaluation: the only kind of step the block has (spec/00_scope.md R16). -/

namespace Sys2Proof.Machine

/-- `decode` on the word that is on the input port: the instruction it names delivers its result, or the error is raised (R130). -/
def evaluate (s : State) : Host.Outcome State Fault Refusal :=
  match decodeInstr s.word with
  | .value i => exec i s
  | .error e => raise e s

end Sys2Proof.Machine
end

