-- ==== Sys2Proof/Machine/Step.lean ====
section
/-! DEFINITION. One step: the caller presents its next word and the block evaluates it (spec/00_scope.md R16,
spec/70_reset_and_hazards.md R279). There is no fetch at a program counter (spec/10_state.md R22): the word comes from the caller
(notes/assumptions/3.md). -/

namespace Sys2Proof.Machine

/-- One decode call. -/
def step (s : State) : Host.Outcome State Fault Refusal := evaluate s.presentNext

/-- `s` with a table word as the next word the caller presents. -/
def State.withFetchWord (s : State) (nbits w : Nat) : State := s.presentWord (tableWord nbits w)

end Sys2Proof.Machine
end

