-- ==== Sys2Proof/Machine/Copies.lean ====
section
/-! DEFINITION. Several copies of the block (spec/00_scope.md R16, spec/20_memory.md R46, spec/60_exceptions.md R253): separate
copies, each with its own ports, sharing no signal (spec/92_eei_decisions.md D14). Concurrent calls are shown as every interleaving
of single evaluations (notes/assumptions/4.md). -/

namespace Sys2Proof.Machine

/-- `n` copies of the block, each with its own caller. -/
abbrev Copies (n : Nat) := Vector State n

/-- Copy `k` makes one step. -/
def Copies.stepAt {n : Nat} (k : Fin n) (c : Copies n) : Host.Outcome (Copies n) Fault Refusal :=
  match step (c.get k) with
  | .next t => .next (c.set k t)
  | .fault f => .fault f
  | .refused r => .refused r

/-- The copies step in the order a schedule names them. -/
def Copies.run {n : Nat} : List (Fin n) → Copies n → Host.Outcome (Copies n) Fault Refusal
  | [], c => .next c
  | k :: ks, c =>
    match Copies.stepAt k c with
    | .next d => Copies.run ks d
    | .fault f => .fault f
    | .refused r => .refused r

end Sys2Proof.Machine
end

