-- ==== Sys2Proof/Safety.lean ====
section
/-! DEFINITION. What a safe state is, in the terms the statements use. -/

namespace Sys2Proof.Machine

/-- The block is combinational (spec/42_instruction_builder.md R148): the outputs are the function of the word on the input port. -/
def State.settled (s : State) : Prop := s.out = Ports.ofResult (decode s.word)

/-- The port values the block can drive (spec/93_implementation_defined.md U6; R137, R140, R141, R146): `status` is never 3, `form` is
0 exactly when `status` is not 0, the tag codes are in the tables, and bits 31 to 26 of `target` are 0. -/
def Ports.drivable (p : Ports) : Prop :=
  p.status ≠ 3 ∧ (p.form = 0 ↔ p.status ≠ 0) ∧ p.readBack ≠ none ∧ p.target.toNat < 2 ^ 26

/-- The caller pairs the last result with the word on the port (spec/70_reset_and_hazards.md R279). -/
def State.paired (s : State) : Prop := ∀ r, s.returned.getLast? = some r → r = decode s.word

/-- Every result the caller holds is one R29 and R32 allow. -/
def State.resultsLegal (s : State) : Prop := ∀ r ∈ s.returned, DecodeResult.legal r = true

/-- A safe state. -/
structure State.safe (s : State) : Prop where
  settled : s.settled
  drivable : s.out.drivable
  paired : s.paired
  resultsLegal : s.resultsLegal

end Sys2Proof.Machine
end

