-- ==== Sys2Proof/Certificates/Slice0/Obligations.lean ====
section
/-! DEFINITION. The statements about the model, each from the rules of spec/ that its docstring names. -/

namespace Sys2Proof.Stated

open Sys2Proof.Machine

/-- The 20 recognised function codes (R71). -/
def recognisedFunctions : List Code :=
  [0x00, 0x02, 0x03, 0x08, 0x10, 0x12, 0x18, 0x19, 0x1A, 0x1B, 0x20, 0x21, 0x22, 0x23, 0x24, 0x25,
   0x26, 0x27, 0x2A, 0x2B]

/-- The 44 unrecognised function codes, as R74 lists them. -/
def unrecognisedFunctions : List Code :=
  [0x01, 0x04, 0x05, 0x06, 0x07, 0x09, 0x0A, 0x0B, 0x0C, 0x0D, 0x0E, 0x0F, 0x11, 0x13, 0x14, 0x15,
   0x16, 0x17, 0x1C, 0x1D, 0x1E, 0x1F, 0x28, 0x29, 0x2C, 0x2D, 0x2E, 0x2F, 0x30, 0x31, 0x32, 0x33,
   0x34, 0x35, 0x36, 0x37, 0x38, 0x39, 0x3A, 0x3B, 0x3C, 0x3D, 0x3E, 0x3F]

/-- The 15 immediate opcodes (R113). -/
def immediateOpcodes : List Code :=
  [0x04, 0x05, 0x08, 0x09, 0x0A, 0x0B, 0x0C, 0x0D, 0x0F, 0x23, 0x24, 0x25, 0x28, 0x29, 0x2B]

/-- The 46 unrecognised opcodes, as R73 lists them. -/
def unrecognisedOpcodes : List Code :=
  [0x01, 0x06, 0x07, 0x0E, 0x10, 0x11, 0x12, 0x13, 0x14, 0x15, 0x16, 0x17, 0x18, 0x19, 0x1A, 0x1B,
   0x1C, 0x1D, 0x1E, 0x1F, 0x20, 0x21, 0x22, 0x26, 0x27, 0x2A, 0x2C, 0x2D, 0x2E, 0x2F, 0x30, 0x31,
   0x32, 0x33, 0x34, 0x35, 0x36, 0x37, 0x38, 0x39, 0x3A, 0x3B, 0x3C, 0x3D, 0x3E, 0x3F]

/-- `classify_opcode` fails on each code of the list. -/
abbrev failingOpcodes (l : List Code) : Prop := ∀ c ∈ l, classifyOpcode c = .error .unknownOpcode

/-- `classify_function` fails on each code of the list. -/
abbrev failingFunctions (l : List Code) : Prop := ∀ c ∈ l, classifyFunction c = .error .unknownFunction

/-- Each word of the list decodes to the result beside it. -/
abbrev decodesTo (l : List (Word × DecodeResult)) : Prop := ∀ e ∈ l, decode e.1 = e.2

/-- The four cases of `decode`, each a test of the opcode and the result it answers with (R120: the opcode sets are disjoint). -/
def dispatchCases : List (Word → Option DecodeResult) :=
  [fun w => if opcode w = 0x00 then some (decodeRegister w) else none,
   fun w => if opcode w = 0x02 then some (.value (.jump .jump (targetAddress w))) else none,
   fun w => if opcode w = 0x03 then some (.value (.jump .jumpAndLink (targetAddress w))) else none,
   fun w =>
    match lookupImmediate (opcode w) with
    | .value t => some (.value (.immediate t (sourceRegister w) (targetRegister w) (immediate w)))
    | .error _ => none]

/-- The shape of R162 to R181: the words of the pattern, and their decode with every operand value. -/
def registerRule (f : FunctTag) (fc : Code) (first last : Word) : Prop :=
  (∀ w : Word, w &&& (0xFC00003F : Word) = first ↔ opcode w = 0x00 ∧ functionCode w = fc) ∧
  (∀ w : Word, w &&& (0xFC00003F : Word) = first ↔ first ≤ w ∧ w ≤ last ∧ w.toNat % 64 = fc.toNat) ∧
  (∀ w : Word, opcode w = 0x00 → functionCode w = fc →
    decode w = .value (.register f (sourceRegister w) (targetRegister w) (destinationRegister w) (shiftAmount w))) ∧
  (∀ (rs rt rd : RegIndex) (shamt : ShiftAmount),
    decode ((0x00 : Code) ++ rs ++ rt ++ rd ++ shamt ++ fc) = .value (.register f rs rt rd shamt))

/-- The shape of R193 and R194. -/
def jumpRule (j : JumpTag) (op : Code) (first last : Word) : Prop :=
  (∀ w : Word, w &&& (0xFC000000 : Word) = first ↔ opcode w = op) ∧
  (∀ w : Word, w &&& (0xFC000000 : Word) = first ↔ first ≤ w ∧ w ≤ last) ∧
  (∀ w : Word, opcode w = op → decode w = .value (.jump j (targetAddress w))) ∧
  (∀ payload : BitVec 26, decode (op ++ payload) = .value (.jump j (payload.setWidth 32)))

/-- The shape of R203 to R211 and R222 to R227. -/
def immediateRule (t : ImmTag) (op : Code) (first last : Word) : Prop :=
  (∀ w : Word, w &&& (0xFC000000 : Word) = first ↔ opcode w = op) ∧
  (∀ w : Word, w &&& (0xFC000000 : Word) = first ↔ first ≤ w ∧ w ≤ last) ∧
  (∀ w : Word, opcode w = op →
    decode w = .value (.immediate t (sourceRegister w) (targetRegister w) (immediate w))) ∧
  (∀ (rs rt : RegIndex) (pattern : BitVec 16),
    decode (op ++ rs ++ rt ++ pattern) = .value (.immediate t rs rt pattern.toInt))

/-- The ports of a Register form (R140 to R147, the line of R160). -/
def registerPorts (fc : Code) (rs rt rd : RegIndex) (shamt : ShiftAmount) : Ports :=
  { status := 0, form := 1, opTag := 0x00, functTag := fc, rs := rs, rt := rt, rd := rd, shamt := shamt, imm := 0, target := 0 }

/-- The ports of a Jump form (R140 to R147, the line of R190). -/
def jumpPorts (op : Code) (target : Word) : Ports :=
  { status := 0, form := 2, opTag := op, functTag := 0, rs := 0, rt := 0, rd := 0, shamt := 0, imm := 0, target := target }

/-- The ports of an Immediate form (R140 to R147, the line of R200). -/
def immediatePorts (op : Code) (rs rt : RegIndex) (imm : BitVec 16) : Ports :=
  { status := 0, form := 3, opTag := op, functTag := 0, rs := rs, rt := rt, rd := 0, shamt := 0, imm := imm, target := 0 }

/-- The ports of an error: its `status`, and every instruction output 0 (R147, R240). -/
def errorPorts (status : BitVec 2) : Ports :=
  { status := status, form := 0, opTag := 0, functTag := 0, rs := 0, rt := 0, rd := 0, shamt := 0, imm := 0, target := 0 }

/-- The whole state after an instruction: the ports and one more result; the word and the pending words as before. -/
def answered (s : State) (p : Ports) (r : DecodeResult) : State :=
  { word := s.word, pending := s.pending, out := p, returned := s.returned ++ [r] }

/-- The whole state after a step: the next word (or the held one) on the port, the ports, and one more result. -/
def evaluated (s : State) (p : Ports) (r : DecodeResult) : State :=
  { word := s.pending.headD s.word, pending := s.pending.tail, out := p, returned := s.returned ++ [r] }

end Sys2Proof.Stated

open Sys2Proof Sys2Proof.Machine Sys2Proof.Stated

/-- R90 to R96 and R98: the seven unsigned field extractions and the helper `immediate_bits`, with the corner cases and
worked examples of their rules. -/
def Obligations.ExtractorsReadFixedBits : Prop :=
  (∀ w : Word,
    (opcode w).toNat = w.toNat / 2 ^ 26 ∧
    (sourceRegister w).toNat = w.toNat / 2 ^ 21 % 32 ∧
    (targetRegister w).toNat = w.toNat / 2 ^ 16 % 32 ∧
    (destinationRegister w).toNat = w.toNat / 2 ^ 11 % 32 ∧
    (shiftAmount w).toNat = w.toNat / 2 ^ 6 % 32 ∧
    (functionCode w).toNat = w.toNat % 64 ∧
    (immediateBits w).toNat = w.toNat % 65536 ∧
    (targetAddress w).toNat = w.toNat % 2 ^ 26 ∧
    targetAddress w = w &&& (0x03FFFFFF : Word)) ∧
  (opcode 0x00000000 = 0 ∧ opcode 0xFFFFFFFF = 0x3F ∧ opcode 0x20A50014 = 0x08 ∧ opcode 0x00851820 = 0x00 ∧
    opcode 0x08000010 = 0x02) ∧
  (sourceRegister 0x00000000 = 0 ∧ sourceRegister 0xFFFFFFFF = 31 ∧ sourceRegister 0x20A50014 = 5 ∧
    sourceRegister 0x00851820 = 4 ∧ sourceRegister 0x08000010 = 0) ∧
  (targetRegister 0x00000000 = 0 ∧ targetRegister 0xFFFFFFFF = 31 ∧ targetRegister 0x20A50014 = 5 ∧
    targetRegister 0x00851820 = 5 ∧ targetRegister 0x08000010 = 0) ∧
  (destinationRegister 0x00000000 = 0 ∧ destinationRegister 0xFFFFFFFF = 31 ∧ destinationRegister 0x00851820 = 3 ∧
    destinationRegister 0x20A50014 = 0 ∧ destinationRegister 0x08000010 = 0) ∧
  (shiftAmount 0x00000000 = 0 ∧ shiftAmount 0xFFFFFFFF = 31 ∧ shiftAmount 0x00851820 = 0 ∧ shiftAmount 0x00052940 = 5) ∧
  (functionCode 0x00000000 = 0 ∧ functionCode 0xFFFFFFFF = 0x3F ∧ functionCode 0x00851820 = 0x20 ∧
    functionCode 0x20A50014 = 0x14) ∧
  (immediateBits 0x20A50014 = 0x0014 ∧ immediateBits 0xFFFFFFFF = 0xFFFF) ∧
  (targetAddress 0x0BFFFFFF = 0x03FFFFFF ∧ targetAddress 0x00000000 = 0 ∧ targetAddress 0xFFFFFFFF = 0x03FFFFFF ∧
    targetAddress 0x08000010 = 16)

/-- R97: bits 15 to 0 read as a signed number, with its corner cases and worked examples. -/
def Obligations.ImmediateReadsSigned16 : Prop :=
  (∀ w : Word,
    immediate w = (if w.getLsbD 15 then ((w.toNat % 65536 : Nat) : Int) - 65536 else ((w.toNat % 65536 : Nat) : Int))) ∧
  (∀ w : Word, immediateBits w = 0x0000 → immediate w = 0) ∧
  (∀ w : Word, immediateBits w = 0x7FFF → immediate w = 32767) ∧
  (∀ w : Word, immediateBits w = 0x8000 → immediate w = -32768) ∧
  (∀ w : Word, immediateBits w = 0xFFFF → immediate w = -1) ∧
  immediate 0x20A50014 = 20 ∧ immediate 0xFFFFFFFF = -1 ∧ immediate 0x2084FFFC = -4

/-- R103, with the part its rule marks as derived from R97: the sign of a decoded immediate is bit 15, and the pattern is recoverable. -/
def Obligations.ImmediateSignLaw : Prop :=
  ∀ (w : Word) (t : ImmTag) (rs rt : RegIndex) (imm : Int),
    decode w = .value (.immediate t rs rt imm) →
      (imm < 0 ↔ w.getLsbD 15 = true) ∧
      (w.getLsbD 15 = false → imm = ((w.toNat % 65536 : Nat) : Int)) ∧
      imm % 65536 = ((w.toNat % 65536 : Nat) : Int) ∧ -32768 ≤ imm ∧ imm ≤ 32767

/-- R104: the jump payload is zero-extended, and a decoded Jump form carries it. -/
def Obligations.TargetAddressZeroExtends : Prop :=
  (∀ w : Word, (targetAddress w).toNat ≤ 0x03FFFFFF ∧ (targetAddress w).extractLsb' 26 6 = 0 ∧
    (targetAddress w).extractLsb' 0 26 = w.extractLsb' 0 26) ∧
  (∀ (w : Word) (j : JumpTag) (target : Word), decode w = .value (.jump j target) → target = targetAddress w)

/-- R105, which the spec marks as derived from R90 to R98: the five recomposition laws. -/
def Obligations.FieldsRecomposeTheWord : Prop :=
  ∀ w : Word,
    w.toNat = (opcode w).toNat * 2 ^ 26 + (sourceRegister w).toNat * 2 ^ 21 + (targetRegister w).toNat * 2 ^ 16 +
      (destinationRegister w).toNat * 2 ^ 11 + (shiftAmount w).toNat * 2 ^ 6 + (functionCode w).toNat ∧
    w.toNat = (opcode w).toNat * 2 ^ 26 + (sourceRegister w).toNat * 2 ^ 21 + (targetRegister w).toNat * 2 ^ 16 +
      (immediateBits w).toNat ∧
    w.toNat = (opcode w).toNat * 2 ^ 26 + (targetAddress w).toNat ∧
    (immediateBits w).toNat = (destinationRegister w).toNat * 2 ^ 11 + (shiftAmount w).toNat * 2 ^ 6 +
      (functionCode w).toNat ∧
    (targetAddress w).toNat = (sourceRegister w).toNat * 2 ^ 21 + (targetRegister w).toNat * 2 ^ 16 +
      (immediateBits w).toNat

/-- R101, which the spec marks as derived: every extraction is a selection of wires. -/
def Obligations.ExtractorsAreWires : Prop :=
  ∀ (w : Word) (i : Nat),
    (opcode w).getLsbD i = (decide (i < 6) && w.getLsbD (26 + i)) ∧
    (sourceRegister w).getLsbD i = (decide (i < 5) && w.getLsbD (21 + i)) ∧
    (targetRegister w).getLsbD i = (decide (i < 5) && w.getLsbD (16 + i)) ∧
    (destinationRegister w).getLsbD i = (decide (i < 5) && w.getLsbD (11 + i)) ∧
    (shiftAmount w).getLsbD i = (decide (i < 5) && w.getLsbD (6 + i)) ∧
    (functionCode w).getLsbD i = (decide (i < 6) && w.getLsbD i) ∧
    (immediateBits w).getLsbD i = (decide (i < 16) && w.getLsbD i) ∧
    (targetAddress w).getLsbD i = (decide (i < 26) && w.getLsbD i) ∧
    BitVec.ofInt 16 (immediate w) = immediateBits w

/-- R110 to R114: `classify_opcode` on all 64 values. -/
def Obligations.OpcodeClassificationTable : Prop :=
  classifyOpcode 0x00 = .value .trigger ∧
  classifyOpcode 0x02 = .value (.jumpClass .jump) ∧
  classifyOpcode 0x03 = .value (.jumpClass .jumpAndLink) ∧
  classifyOpcode 0x04 = .value (.immClass .branchEqual) ∧
  classifyOpcode 0x05 = .value (.immClass .branchNotEqual) ∧
  classifyOpcode 0x08 = .value (.immClass .addImmediate) ∧
  classifyOpcode 0x09 = .value (.immClass .addImmediateUnsigned) ∧
  classifyOpcode 0x0A = .value (.immClass .setLessThanImmediate) ∧
  classifyOpcode 0x0B = .value (.immClass .setLessThanImmediateUnsigned) ∧
  classifyOpcode 0x0C = .value (.immClass .andImmediate) ∧
  classifyOpcode 0x0D = .value (.immClass .orImmediate) ∧
  classifyOpcode 0x0F = .value (.immClass .loadUpperImmediate) ∧
  classifyOpcode 0x23 = .value (.immClass .loadWord) ∧
  classifyOpcode 0x24 = .value (.immClass .loadByteUnsigned) ∧
  classifyOpcode 0x25 = .value (.immClass .loadHalfwordUnsigned) ∧
  classifyOpcode 0x28 = .value (.immClass .storeByte) ∧
  classifyOpcode 0x29 = .value (.immClass .storeHalfword) ∧
  classifyOpcode 0x2B = .value (.immClass .storeWord) ∧
  (∀ op : Code, op ∉ ([0x00, 0x02, 0x03] ++ immediateOpcodes) → classifyOpcode op = .error .unknownOpcode) ∧
  failingOpcodes unrecognisedOpcodes ∧ unrecognisedOpcodes.length = 46 ∧
  (∀ w : Word, opcode w ∈ [0x00, 0x02, 0x03] ++ immediateOpcodes → decode w ≠ .error .unknownOpcode) ∧
  (∀ w : Word, opcode w ∈ [0x02, 0x03] ++ immediateOpcodes → ∃ i, decode w = .value i) ∧
  decode 0xF8000000 = .error .unknownOpcode

/-- R115, R116: `classify_function` on all 64 values, and where its error can arise in `decode`. -/
def Obligations.FunctionClassificationTable : Prop :=
  classifyFunction 0x00 = .value .shiftLeftLogical ∧
  classifyFunction 0x02 = .value .shiftRightLogical ∧
  classifyFunction 0x03 = .value .shiftRightArithmetic ∧
  classifyFunction 0x08 = .value .jumpRegister ∧
  classifyFunction 0x10 = .value .moveFromHi ∧
  classifyFunction 0x12 = .value .moveFromLo ∧
  classifyFunction 0x18 = .value .multiply ∧
  classifyFunction 0x19 = .value .multiplyUnsigned ∧
  classifyFunction 0x1A = .value .divide ∧
  classifyFunction 0x1B = .value .divideUnsigned ∧
  classifyFunction 0x20 = .value .add ∧
  classifyFunction 0x21 = .value .addUnsigned ∧
  classifyFunction 0x22 = .value .subtract ∧
  classifyFunction 0x23 = .value .subtractUnsigned ∧
  classifyFunction 0x24 = .value .and ∧
  classifyFunction 0x25 = .value .or ∧
  classifyFunction 0x26 = .value .xor ∧
  classifyFunction 0x27 = .value .nor ∧
  classifyFunction 0x2A = .value .setLessThan ∧
  classifyFunction 0x2B = .value .setLessThanUnsigned ∧
  (∀ fc : Code, fc ∉ recognisedFunctions → classifyFunction fc = .error .unknownFunction) ∧
  failingFunctions unrecognisedFunctions ∧ unrecognisedFunctions.length = 44 ∧
  (∀ w : Word, decode w = .error .unknownFunction → opcode w = 0x00) ∧
  decode 0x0000003F = .error .unknownFunction

/-- R118: no default and no neighbour; R121 (derived): a tag's code is the classified code itself. -/
def Obligations.EachCodeHasExactlyOneTag : Prop :=
  (∀ (c d : Code) (k : OpcodeClass), classifyOpcode c = .value k → classifyOpcode d = .value k → c = d) ∧
  (∀ (c d : Code) (f : FunctTag), classifyFunction c = .value f → classifyFunction d = .value f → c = d) ∧
  (∀ (c : Code) (f : FunctTag), classifyFunction c = .value f ↔ f.code = c) ∧
  (∀ (c : Code) (t : ImmTag), classifyOpcode c = .value (.immClass t) ↔ t.code = c) ∧
  (∀ (c : Code) (j : JumpTag), classifyOpcode c = .value (.jumpClass j) ↔ j.code = c) ∧
  (∀ c : Code, classifyOpcode c = .value .trigger ↔ OpTag.registerTrigger.code = c) ∧
  (∀ (c : Code) (e : DecodeError), classifyOpcode c = .error e → e = .unknownOpcode) ∧
  (∀ (c : Code) (e : DecodeError), classifyFunction c = .error e → e = .unknownFunction)

/-- R117, its examples (marked derived): the same number recognised by one table and not the other. -/
def Obligations.ClassifiersAreIndependentTables : Prop :=
  classifyFunction 0x2A = .value .setLessThan ∧ classifyOpcode 0x2A = .error .unknownOpcode ∧
  classifyOpcode 0x04 = .value (.immClass .branchEqual) ∧ classifyFunction 0x04 = .error .unknownFunction ∧
  classifyOpcode 0x23 = .value (.immClass .loadWord) ∧ classifyFunction 0x23 = .value .subtractUnsigned

/-- R120, R135, and the conflicts file's C7: the builder's three tests and the classifier's one lookup give the same `decode`,
and the builder's cases tried in any order whatever give it too. The spec marks the inference as derived. -/
def Obligations.DecodeIsTheClassifiedDispatch : Prop :=
  ∀ w : Word,
    decode w = (match classifyOpcode (opcode w) with
      | .value .trigger => decodeRegister w
      | .value (.jumpClass j) => .value (.jump j (targetAddress w))
      | .value (.immClass t) => .value (.immediate t (sourceRegister w) (targetRegister w) (immediate w))
      | .error e => .error e) ∧
    decode w = (match lookupImmediate (opcode w) with
      | .value t => .value (.immediate t (sourceRegister w) (targetRegister w) (immediate w))
      | .error e =>
        if opcode w = 0x03 then .value (.jump .jumpAndLink (targetAddress w))
        else if opcode w = 0x02 then .value (.jump .jump (targetAddress w))
        else if opcode w = 0x00 then decodeRegister w
        else .error e) ∧
    ∀ order : List (Word → Option DecodeResult), order.Perm dispatchCases →
      decode w = (order.findSome? (fun case => case w)).getD (.error .unknownOpcode)

/-- R131: step 1 of `decode`. -/
def Obligations.RegisterPathDecodes : Prop :=
  (∀ w : Word, opcode w = 0x00 →
    (∀ f, classifyFunction (functionCode w) = .value f →
      decode w = .value (.register f (sourceRegister w) (targetRegister w) (destinationRegister w) (shiftAmount w))) ∧
    (decode w = .error .unknownFunction ↔ functionCode w ∈ unrecognisedFunctions) ∧
    decode w ≠ .error .unknownOpcode) ∧
  (∀ (f : FunctTag) (rs rt rd : RegIndex) (shamt : ShiftAmount), ∃ w : Word,
    opcode w = 0x00 ∧ decode w = .value (.register f rs rt rd shamt)) ∧
  decodesTo
    [(0x00000000, .value (.register .shiftLeftLogical 0 0 0 0)),
     (0x03FFFFFF, .error .unknownFunction),
     (0x03FFFFEB, .value (.register .setLessThanUnsigned 31 31 31 31)),
     (0x00851820, .value (.register .add 4 5 3 0))]

/-- R132: step 2 of `decode`. -/
def Obligations.JumpPathDecodes : Prop :=
  (∀ w : Word, opcode w = 0x02 → decode w = .value (.jump .jump (targetAddress w))) ∧
  (∀ w : Word, opcode w = 0x03 → decode w = .value (.jump .jumpAndLink (targetAddress w))) ∧
  decodesTo
    [(0x08000000, .value (.jump .jump 0)),
     (0x0BFFFFFF, .value (.jump .jump 0x03FFFFFF)),
     (0x0FFFFFFF, .value (.jump .jumpAndLink 0x03FFFFFF)),
     (0x08000010, .value (.jump .jump 16))]

/-- R133: step 3 of `decode`. Also R202: one signed reading of the immediate, whatever the opcode. -/
def Obligations.ImmediatePathDecodes : Prop :=
  (∀ w : Word, opcode w ≠ 0x00 → opcode w ≠ 0x02 → opcode w ≠ 0x03 →
    (∀ t, classifyOpcode (opcode w) = .value (.immClass t) →
      decode w = .value (.immediate t (sourceRegister w) (targetRegister w) (immediate w))) ∧
    (decode w = .error .unknownOpcode ↔ opcode w ∈ unrecognisedOpcodes) ∧
    decode w ≠ .error .unknownFunction) ∧
  decodesTo
    [(0xFFFFFFFF, .error .unknownOpcode),
     (0x04000000, .error .unknownOpcode),
     (0xAFFFFFFF, .value (.immediate .storeWord 31 31 (-1))),
     (0x20A50014, .value (.immediate .addImmediate 5 5 20))]

/-- R134: exactly one of five outcomes, decided by the opcode and, when that is 0, by the function code. -/
def Obligations.OutcomeClassIsDecidedByTheCodes : Prop :=
  (∀ w : Word,
    ((∃ f rs rt rd shamt, decode w = .value (.register f rs rt rd shamt)) ↔
      opcode w = 0x00 ∧ functionCode w ∈ recognisedFunctions) ∧
    (decode w = .error .unknownFunction ↔ opcode w = 0x00 ∧ functionCode w ∈ unrecognisedFunctions) ∧
    ((∃ j target, decode w = .value (.jump j target)) ↔ opcode w = 0x02 ∨ opcode w = 0x03) ∧
    ((∃ t rs rt imm, decode w = .value (.immediate t rs rt imm)) ↔ opcode w ∈ immediateOpcodes) ∧
    (decode w = .error .unknownOpcode ↔ opcode w ∈ unrecognisedOpcodes)) ∧
  (∀ w v : Word, opcode w = opcode v → (opcode w = 0x00 → functionCode w = functionCode v) →
    DecodeResult.outcomeClass (decode w) = DecodeResult.outcomeClass (decode v))

/-- R162 to R171: one clause per instruction: its words, its decode on all of them, its examples, the codes its rule calls unrecognised. -/
def Obligations.RegisterRulesShiftToDivide : Prop :=
  registerRule .shiftLeftLogical 0x00 0x00000000 0x03FFFFC0 ∧
    decodesTo
      [(0x00000000, .value (.register .shiftLeftLogical 0 0 0 0)),
       (0x00052940, .value (.register .shiftLeftLogical 0 5 5 5)),
       (0x03E52940, .value (.register .shiftLeftLogical 31 5 5 5)),
       (0x03FFFFC0, .value (.register .shiftLeftLogical 31 31 31 31))] ∧
    failingFunctions [0x01] ∧
  registerRule .shiftRightLogical 0x02 0x00000002 0x03FFFFC2 ∧
    decodesTo
      [(0x00094082, .value (.register .shiftRightLogical 0 9 8 2)),
       (0x00294082, .value (.register .shiftRightLogical 1 9 8 2)),
       (0x00000002, .value (.register .shiftRightLogical 0 0 0 0)),
       (0x03FFFFC2, .value (.register .shiftRightLogical 31 31 31 31))] ∧
    failingFunctions [0x01] ∧
    classifyFunction 0x03 = .value .shiftRightArithmetic ∧
  registerRule .shiftRightArithmetic 0x03 0x00000003 0x03FFFFC3 ∧
    decodesTo
      [(0x001187C3, .value (.register .shiftRightArithmetic 0 17 16 31)),
       (0x00118003, .value (.register .shiftRightArithmetic 0 17 16 0)),
       (0x00000003, .value (.register .shiftRightArithmetic 0 0 0 0)),
       (0x03FFFFC3, .value (.register .shiftRightArithmetic 31 31 31 31))] ∧
    failingFunctions [0x04, 0x05, 0x06, 0x07] ∧
  registerRule .jumpRegister 0x08 0x00000008 0x03FFFFC8 ∧
    decodesTo
      [(0x03E00008, .value (.register .jumpRegister 31 0 0 0)),
       (0x03E110C8, .value (.register .jumpRegister 31 1 2 3)),
       (0x00000008, .value (.register .jumpRegister 0 0 0 0)),
       (0x03FFFFC8, .value (.register .jumpRegister 31 31 31 31))] ∧
    failingFunctions [0x09] ∧
  registerRule .moveFromHi 0x10 0x00000010 0x03FFFFD0 ∧
    decodesTo
      [(0x00004010, .value (.register .moveFromHi 0 0 8 0)),
       (0x002240D0, .value (.register .moveFromHi 1 2 8 3)),
       (0x00000010, .value (.register .moveFromHi 0 0 0 0)),
       (0x03FFFFD0, .value (.register .moveFromHi 31 31 31 31))] ∧
    failingFunctions [0x11, 0x13] ∧
  registerRule .moveFromLo 0x12 0x00000012 0x03FFFFD2 ∧
    decodesTo
      [(0x00004812, .value (.register .moveFromLo 0 0 9 0)),
       (0x00000012, .value (.register .moveFromLo 0 0 0 0)),
       (0x03FFFFD2, .value (.register .moveFromLo 31 31 31 31))] ∧
    failingFunctions [0x11, 0x13] ∧
  registerRule .multiply 0x18 0x00000018 0x03FFFFD8 ∧
    decodesTo
      [(0x00850018, .value (.register .multiply 4 5 0 0)),
       (0x008531D8, .value (.register .multiply 4 5 6 7)),
       (0x00000018, .value (.register .multiply 0 0 0 0)),
       (0x03FFFFD8, .value (.register .multiply 31 31 31 31))] ∧
    failingFunctions [0x17] ∧
  registerRule .multiplyUnsigned 0x19 0x00000019 0x03FFFFD9 ∧
    decodesTo
      [(0x02110019, .value (.register .multiplyUnsigned 16 17 0 0)),
       (0x00000019, .value (.register .multiplyUnsigned 0 0 0 0)),
       (0x03FFFFD9, .value (.register .multiplyUnsigned 31 31 31 31))] ∧
  registerRule .divide 0x1A 0x0000001A 0x03FFFFDA ∧
    decodesTo
      [(0x0109001A, .value (.register .divide 8 9 0 0)),
       (0x0100001A, .value (.register .divide 8 0 0 0)),
       (0x0000001A, .value (.register .divide 0 0 0 0)),
       (0x03FFFFDA, .value (.register .divide 31 31 31 31))] ∧
  registerRule .divideUnsigned 0x1B 0x0000001B 0x03FFFFDB ∧
    decodesTo
      [(0x014B001B, .value (.register .divideUnsigned 10 11 0 0)),
       (0x03FFFFDB, .value (.register .divideUnsigned 31 31 31 31)),
       (0x0000001B, .value (.register .divideUnsigned 0 0 0 0))] ∧
    failingFunctions [0x1C, 0x1D, 0x1E, 0x1F]

/-- R172 to R181: one clause per instruction: its words, its decode on all of them, its examples, the codes its rule calls unrecognised. -/
def Obligations.RegisterRulesAddToSetLess : Prop :=
  registerRule .add 0x20 0x00000020 0x03FFFFE0 ∧
    decodesTo
      [(0x00851820, .value (.register .add 4 5 3 0)),
       (0x00851FE0, .value (.register .add 4 5 3 31)),
       (0x00000020, .value (.register .add 0 0 0 0)),
       (0x03FFFFE0, .value (.register .add 31 31 31 31))] ∧
    failingOpcodes [0x20] ∧
  registerRule .addUnsigned 0x21 0x00000021 0x03FFFFE1 ∧
    decodesTo
      [(0x03A0F021, .value (.register .addUnsigned 29 0 30 0)),
       (0x00000021, .value (.register .addUnsigned 0 0 0 0)),
       (0x03FFFFE1, .value (.register .addUnsigned 31 31 31 31))] ∧
  registerRule .subtract 0x22 0x00000022 0x03FFFFE2 ∧
    decodesTo
      [(0x012A4022, .value (.register .subtract 9 10 8 0)),
       (0x01294822, .value (.register .subtract 9 9 9 0)),
       (0x00000022, .value (.register .subtract 0 0 0 0)),
       (0x03FFFFE2, .value (.register .subtract 31 31 31 31))] ∧
  registerRule .subtractUnsigned 0x23 0x00000023 0x03FFFFE3 ∧
    decodesTo
      [(0x00430823, .value (.register .subtractUnsigned 2 3 1 0)),
       (0x03FFFFE3, .value (.register .subtractUnsigned 31 31 31 31)),
       (0x00000023, .value (.register .subtractUnsigned 0 0 0 0))] ∧
    classifyOpcode 0x23 = .value (.immClass .loadWord) ∧
  registerRule .and 0x24 0x00000024 0x03FFFFE4 ∧
    decodesTo
      [(0x01095024, .value (.register .and 8 9 10 0)),
       (0x00000024, .value (.register .and 0 0 0 0)),
       (0x03FFFFE4, .value (.register .and 31 31 31 31))] ∧
    classifyFunction 0x20 = .value .add ∧
    classifyFunction 0x21 = .value .addUnsigned ∧
    classifyFunction 0x22 = .value .subtract ∧
    classifyFunction 0x23 = .value .subtractUnsigned ∧
    classifyFunction 0x24 = .value .and ∧
    classifyFunction 0x25 = .value .or ∧
    classifyFunction 0x26 = .value .xor ∧
    classifyFunction 0x27 = .value .nor ∧
  registerRule .or 0x25 0x00000025 0x03FFFFE5 ∧
    decodesTo
      [(0x00801025, .value (.register .or 4 0 2 0)),
       (0x00801065, .value (.register .or 4 0 2 1)),
       (0x00000025, .value (.register .or 0 0 0 0)),
       (0x03FFFFE5, .value (.register .or 31 31 31 31))] ∧
  registerRule .xor 0x26 0x00000026 0x03FFFFE6 ∧
    decodesTo
      [(0x018D7026, .value (.register .xor 12 13 14 0)),
       (0x03FFFFE6, .value (.register .xor 31 31 31 31)),
       (0x00000026, .value (.register .xor 0 0 0 0))] ∧
    failingOpcodes [0x0E] ∧
  registerRule .nor 0x27 0x00000027 0x03FFFFE7 ∧
    decodesTo
      [(0x00200827, .value (.register .nor 1 0 1 0)),
       (0x00000027, .value (.register .nor 0 0 0 0)),
       (0x03FFFFE7, .value (.register .nor 31 31 31 31))] ∧
    failingFunctions [0x28, 0x29] ∧
  registerRule .setLessThan 0x2A 0x0000002A 0x03FFFFEA ∧
    decodesTo
      [(0x0232402A, .value (.register .setLessThan 17 18 8 0)),
       (0x0232416A, .value (.register .setLessThan 17 18 8 5)),
       (0x0000002A, .value (.register .setLessThan 0 0 0 0)),
       (0x03FFFFEA, .value (.register .setLessThan 31 31 31 31))] ∧
    failingFunctions [0x28, 0x29] ∧
    failingOpcodes [0x2A] ∧
  registerRule .setLessThanUnsigned 0x2B 0x0000002B 0x03FFFFEB ∧
    decodesTo
      [(0x03FFFFEB, .value (.register .setLessThanUnsigned 31 31 31 31)),
       (0x0000002B, .value (.register .setLessThanUnsigned 0 0 0 0)),
       (0x03FFFFFF, .error .unknownFunction)] ∧
    failingFunctions [0x2C, 0x2D, 0x2E, 0x2F, 0x30, 0x31, 0x32, 0x33, 0x34, 0x35, 0x36, 0x37, 0x38, 0x39, 0x3A, 0x3B, 0x3C, 0x3D, 0x3E, 0x3F] ∧
    classifyOpcode 0x2B = .value (.immClass .storeWord)

/-- R193, R194: one clause per instruction: its words, its decode on all of them, its examples. -/
def Obligations.JumpRules : Prop :=
  jumpRule .jump 0x02 0x08000000 0x0BFFFFFF ∧
    decodesTo
      [(0x08000010, .value (.jump .jump 0x00000010)),
       (0x08000000, .value (.jump .jump 0x00000000)),
       (0x0BFFFFFF, .value (.jump .jump 0x03FFFFFF)),
       (0x08000003, .value (.jump .jump 0x00000003)),
       (0x0A000000, .value (.jump .jump 0x02000000)),
       (0x0800003F, .value (.jump .jump 0x0000003F))] ∧
  jumpRule .jumpAndLink 0x03 0x0C000000 0x0FFFFFFF ∧
    decodesTo
      [(0x0C000040, .value (.jump .jumpAndLink 0x00000040)),
       (0x0C000000, .value (.jump .jumpAndLink 0x00000000)),
       (0x0FFFFFFF, .value (.jump .jumpAndLink 0x03FFFFFF)),
       (0x0C100000, .value (.jump .jumpAndLink 0x00100000)),
       (0x0C000001, .value (.jump .jumpAndLink 0x00000001))] ∧
    failingOpcodes [0x01] ∧
    classifyOpcode 0x04 = .value (.immClass .branchEqual) ∧
    classifyOpcode 0x02 = .value (.jumpClass .jump)

/-- R203 to R211: one clause per instruction: its words, its decode on all of them, its examples, the codes its rule calls unrecognised. -/
def Obligations.ImmediateRules : Prop :=
  immediateRule .branchEqual 0x04 0x10000000 0x13FFFFFF ∧
    decodesTo
      [(0x1109FFFD, .value (.immediate .branchEqual 8 9 (-3))),
       (0x1000FFFF, .value (.immediate .branchEqual 0 0 (-1))),
       (0x10000000, .value (.immediate .branchEqual 0 0 0)),
       (0x13FFFFFF, .value (.immediate .branchEqual 31 31 (-1))),
       (0x10007FFF, .value (.immediate .branchEqual 0 0 32767)),
       (0x10008000, .value (.immediate .branchEqual 0 0 (-32768)))] ∧
    failingOpcodes [0x06, 0x07, 0x01] ∧
  immediateRule .branchNotEqual 0x05 0x14000000 0x17FFFFFF ∧
    decodesTo
      [(0x18000000, .error .unknownOpcode),
       (0x1500FFFB, .value (.immediate .branchNotEqual 8 0 (-5))),
       (0x152A0002, .value (.immediate .branchNotEqual 9 10 2)),
       (0x14000000, .value (.immediate .branchNotEqual 0 0 0)),
       (0x17FFFFFF, .value (.immediate .branchNotEqual 31 31 (-1))),
       (0x14007FFF, .value (.immediate .branchNotEqual 0 0 32767)),
       (0x14008000, .value (.immediate .branchNotEqual 0 0 (-32768)))] ∧
    failingOpcodes [0x06] ∧
  immediateRule .addImmediate 0x08 0x20000000 0x23FFFFFF ∧
    decodesTo
      [(0x20A50014, .value (.immediate .addImmediate 5 5 20)),
       (0x2084FFFC, .value (.immediate .addImmediate 4 4 (-4))),
       (0x20000000, .value (.immediate .addImmediate 0 0 0)),
       (0x23FFFFFF, .value (.immediate .addImmediate 31 31 (-1))),
       (0x20007FFF, .value (.immediate .addImmediate 0 0 32767)),
       (0x20008000, .value (.immediate .addImmediate 0 0 (-32768)))] ∧
    failingOpcodes [0x07] ∧
  immediateRule .addImmediateUnsigned 0x09 0x24000000 0x27FFFFFF ∧
    decodesTo
      [(0x27BDFFF8, .value (.immediate .addImmediateUnsigned 29 29 (-8))),
       (0x2402000A, .value (.immediate .addImmediateUnsigned 0 2 10)),
       (0x24000000, .value (.immediate .addImmediateUnsigned 0 0 0)),
       (0x27FFFFFF, .value (.immediate .addImmediateUnsigned 31 31 (-1))),
       (0x24007FFF, .value (.immediate .addImmediateUnsigned 0 0 32767)),
       (0x24008000, .value (.immediate .addImmediateUnsigned 0 0 (-32768)))] ∧
  immediateRule .setLessThanImmediate 0x0A 0x28000000 0x2BFFFFFF ∧
    decodesTo
      [(0x2882000A, .value (.immediate .setLessThanImmediate 4 2 10)),
       (0x2882FFF6, .value (.immediate .setLessThanImmediate 4 2 (-10))),
       (0x28000000, .value (.immediate .setLessThanImmediate 0 0 0)),
       (0x2BFFFFFF, .value (.immediate .setLessThanImmediate 31 31 (-1))),
       (0x28007FFF, .value (.immediate .setLessThanImmediate 0 0 32767)),
       (0x28008000, .value (.immediate .setLessThanImmediate 0 0 (-32768)))] ∧
  immediateRule .setLessThanImmediateUnsigned 0x0B 0x2C000000 0x2FFFFFFF ∧
    decodesTo
      [(0x2C82FFFF, .value (.immediate .setLessThanImmediateUnsigned 4 2 (-1))),
       (0x2C820001, .value (.immediate .setLessThanImmediateUnsigned 4 2 1)),
       (0x2C000000, .value (.immediate .setLessThanImmediateUnsigned 0 0 0)),
       (0x2FFFFFFF, .value (.immediate .setLessThanImmediateUnsigned 31 31 (-1))),
       (0x2C007FFF, .value (.immediate .setLessThanImmediateUnsigned 0 0 32767)),
       (0x2C008000, .value (.immediate .setLessThanImmediateUnsigned 0 0 (-32768)))] ∧
  immediateRule .andImmediate 0x0C 0x30000000 0x33FFFFFF ∧
    decodesTo
      [(0x30A5FF00, .value (.immediate .andImmediate 5 5 (-256))),
       (0x30A500FF, .value (.immediate .andImmediate 5 5 255)),
       (0x30000000, .value (.immediate .andImmediate 0 0 0)),
       (0x33FFFFFF, .value (.immediate .andImmediate 31 31 (-1))),
       (0x30007FFF, .value (.immediate .andImmediate 0 0 32767)),
       (0x30008000, .value (.immediate .andImmediate 0 0 (-32768)))] ∧
  immediateRule .orImmediate 0x0D 0x34000000 0x37FFFFFF ∧
    decodesTo
      [(0x38000000, .error .unknownOpcode),
       (0x34081234, .value (.immediate .orImmediate 0 8 4660)),
       (0x3508FFFF, .value (.immediate .orImmediate 8 8 (-1))),
       (0x34000000, .value (.immediate .orImmediate 0 0 0)),
       (0x37FFFFFF, .value (.immediate .orImmediate 31 31 (-1))),
       (0x34007FFF, .value (.immediate .orImmediate 0 0 32767)),
       (0x34008000, .value (.immediate .orImmediate 0 0 (-32768)))] ∧
    failingOpcodes [0x0E] ∧
  immediateRule .loadUpperImmediate 0x0F 0x3C000000 0x3FFFFFFF ∧
    decodesTo
      [(0x3C081234, .value (.immediate .loadUpperImmediate 0 8 4660)),
       (0x3CE81234, .value (.immediate .loadUpperImmediate 7 8 4660)),
       (0x3C000000, .value (.immediate .loadUpperImmediate 0 0 0)),
       (0x3FFFFFFF, .value (.immediate .loadUpperImmediate 31 31 (-1))),
       (0x3C007FFF, .value (.immediate .loadUpperImmediate 0 0 32767)),
       (0x3C008000, .value (.immediate .loadUpperImmediate 0 0 (-32768)))] ∧
    failingOpcodes [0x10, 0x11, 0x12, 0x13, 0x14, 0x15, 0x16, 0x17, 0x18, 0x19, 0x1A, 0x1B, 0x1C, 0x1D, 0x1E, 0x1F, 0x20, 0x21, 0x22]

/-- R222 to R227: one clause per instruction: its words, its decode on all of them, its examples, the codes its rule calls unrecognised. -/
def Obligations.LoadStoreRules : Prop :=
  immediateRule .loadWord 0x23 0x8C000000 0x8FFFFFFF ∧
    decodesTo
      [(0x80000000, .error .unknownOpcode),
       (0x8FA80004, .value (.immediate .loadWord 29 8 4)),
       (0x8C89FFFC, .value (.immediate .loadWord 4 9 (-4))),
       (0x8C000000, .value (.immediate .loadWord 0 0 0)),
       (0x8FFFFFFF, .value (.immediate .loadWord 31 31 (-1))),
       (0x8C007FFF, .value (.immediate .loadWord 0 0 32767)),
       (0x8C008000, .value (.immediate .loadWord 0 0 (-32768)))] ∧
    failingOpcodes [0x20, 0x21, 0x22] ∧
    classifyFunction 0x23 = .value .subtractUnsigned ∧
  immediateRule .loadByteUnsigned 0x24 0x90000000 0x93FFFFFF ∧
    decodesTo
      [(0x9089FFFF, .value (.immediate .loadByteUnsigned 4 9 (-1))),
       (0x90890003, .value (.immediate .loadByteUnsigned 4 9 3)),
       (0x90000000, .value (.immediate .loadByteUnsigned 0 0 0)),
       (0x93FFFFFF, .value (.immediate .loadByteUnsigned 31 31 (-1))),
       (0x90007FFF, .value (.immediate .loadByteUnsigned 0 0 32767)),
       (0x90008000, .value (.immediate .loadByteUnsigned 0 0 (-32768)))] ∧
  immediateRule .loadHalfwordUnsigned 0x25 0x94000000 0x97FFFFFF ∧
    decodesTo
      [(0x948A0002, .value (.immediate .loadHalfwordUnsigned 4 10 2)),
       (0x948A0001, .value (.immediate .loadHalfwordUnsigned 4 10 1)),
       (0x94000000, .value (.immediate .loadHalfwordUnsigned 0 0 0)),
       (0x97FFFFFF, .value (.immediate .loadHalfwordUnsigned 31 31 (-1))),
       (0x94007FFF, .value (.immediate .loadHalfwordUnsigned 0 0 32767)),
       (0x94008000, .value (.immediate .loadHalfwordUnsigned 0 0 (-32768)))] ∧
    failingOpcodes [0x26, 0x27] ∧
  immediateRule .storeByte 0x28 0xA0000000 0xA3FFFFFF ∧
    decodesTo
      [(0xA0890000, .value (.immediate .storeByte 4 9 0)),
       (0xA089FF80, .value (.immediate .storeByte 4 9 (-128))),
       (0xA0000000, .value (.immediate .storeByte 0 0 0)),
       (0xA3FFFFFF, .value (.immediate .storeByte 31 31 (-1))),
       (0xA0007FFF, .value (.immediate .storeByte 0 0 32767)),
       (0xA0008000, .value (.immediate .storeByte 0 0 (-32768)))] ∧
  immediateRule .storeHalfword 0x29 0xA4000000 0xA7FFFFFF ∧
    decodesTo
      [(0xA8000000, .error .unknownOpcode),
       (0xA48A7FFF, .value (.immediate .storeHalfword 4 10 32767)),
       (0xA48A0006, .value (.immediate .storeHalfword 4 10 6)),
       (0xA4000000, .value (.immediate .storeHalfword 0 0 0)),
       (0xA7FFFFFF, .value (.immediate .storeHalfword 31 31 (-1))),
       (0xA4007FFF, .value (.immediate .storeHalfword 0 0 32767)),
       (0xA4008000, .value (.immediate .storeHalfword 0 0 (-32768)))] ∧
    failingOpcodes [0x2A] ∧
    classifyFunction 0x2A = .value .setLessThan ∧
  immediateRule .storeWord 0x2B 0xAC000000 0xAFFFFFFF ∧
    decodesTo
      [(0xAFFFFFFF, .value (.immediate .storeWord 31 31 (-1))),
       (0xB0000000, .error .unknownOpcode),
       (0xAFBFFFFC, .value (.immediate .storeWord 29 31 (-4))),
       (0xAFA80004, .value (.immediate .storeWord 29 8 4)),
       (0xAC000000, .value (.immediate .storeWord 0 0 0)),
       (0xAC007FFF, .value (.immediate .storeWord 0 0 32767)),
       (0xAC008000, .value (.immediate .storeWord 0 0 (-32768)))] ∧
    failingOpcodes [0x2C, 0x2D, 0x2E, 0x2F, 0x30, 0x31, 0x32, 0x33, 0x34, 0x35, 0x36, 0x37, 0x38, 0x39, 0x3A, 0x3B, 0x3C, 0x3D, 0x3E, 0x3F] ∧
    classifyFunction 0x2B = .value .setLessThanUnsigned

/-- R160, R161: the family, its decode and its ports. The port values are the spec's own rendering
(spec/92_eei_decisions.md D2 to D6). -/
def Obligations.RegisterFamilyDecodesAndDrivesPorts : Prop :=
  (∀ w : Word, (∃ f rs rt rd shamt, decode w = .value (.register f rs rt rd shamt)) ↔
    opcode w = 0x00 ∧ functionCode w ∈ recognisedFunctions) ∧
  (∀ w : Word, opcode w = 0x00 → functionCode w ∉ recognisedFunctions → decode w = .error .unknownFunction) ∧
  (∀ w : Word, opcode w = 0x00 → functionCode w ∈ recognisedFunctions →
    ∃ f, classifyFunction (functionCode w) = .value f ∧
      decode w = .value (.register f (sourceRegister w) (targetRegister w) (destinationRegister w) (shiftAmount w)) ∧
      (Instruction.register f (sourceRegister w) (targetRegister w) (destinationRegister w) (shiftAmount w)).opTag =
        some .registerTrigger ∧
      Ports.ofResult (decode w) =
        registerPorts (functionCode w) (sourceRegister w) (targetRegister w) (destinationRegister w) (shiftAmount w))

/-- R190: the family, its decode and its ports (spec/92_eei_decisions.md D2 to D6). -/
def Obligations.JumpFamilyDecodesAndDrivesPorts : Prop :=
  (∀ w : Word, (∃ j target, decode w = .value (.jump j target)) ↔ opcode w = 0x02 ∨ opcode w = 0x03) ∧
  (∀ w : Word, opcode w = 0x02 ∨ opcode w = 0x03 →
    decode w = .value (.jump (if opcode w = 0x02 then .jump else .jumpAndLink) (targetAddress w)) ∧
    Ports.ofResult (decode w) = jumpPorts (opcode w) (targetAddress w))

/-- R200: the family, its decode and its ports (spec/92_eei_decisions.md D2 to D6). -/
def Obligations.ImmediateFamilyDecodesAndDrivesPorts : Prop :=
  (∀ w : Word, (∃ t rs rt imm, decode w = .value (.immediate t rs rt imm)) ↔ opcode w ∈ immediateOpcodes) ∧
  (∀ w : Word, opcode w ∉ [0x00, 0x02, 0x03] ++ immediateOpcodes → decode w = .error .unknownOpcode) ∧
  (∀ w : Word, opcode w ∈ immediateOpcodes →
    ∃ t, classifyOpcode (opcode w) = .value (.immClass t) ∧
      decode w = .value (.immediate t (sourceRegister w) (targetRegister w) (immediate w)) ∧
      Ports.ofResult (decode w) =
        immediatePorts (opcode w) (sourceRegister w) (targetRegister w) (immediateBits w))

/-- R182, R195 and R212 (all marked derived): what a decoded value says of its word. -/
def Obligations.FamilyLawsOfFidelityAndRebuild : Prop :=
  (∀ (w : Word) (f : FunctTag) (a b c : RegIndex) (d : ShiftAmount), decode w = .value (.register f a b c d) →
    a = sourceRegister w ∧ b = targetRegister w ∧ c = destinationRegister w ∧ d = shiftAmount w ∧
    f.code = functionCode w ∧
    w.toNat = a.toNat * 2 ^ 21 + b.toNat * 2 ^ 16 + c.toNat * 2 ^ 11 + d.toNat * 2 ^ 6 + f.code.toNat) ∧
  (∀ (w : Word) (j : JumpTag) (t : Word), decode w = .value (.jump j t) →
    t.toNat = w.toNat % 2 ^ 26 ∧ (j = .jump ↔ w.getLsbD 26 = false) ∧
    w.toNat = j.code.toNat * 2 ^ 26 + t.toNat ∧ 0x08000000 ≤ w.toNat ∧ w.toNat ≤ 0x0FFFFFFF) ∧
  (∀ (w : Word) (t : ImmTag) (a b : RegIndex) (i : Int), decode w = .value (.immediate t a b i) →
    a = sourceRegister w ∧ b = targetRegister w ∧ i = immediate w ∧ t.code = opcode w ∧
    (w.toNat : Int) = t.code.toNat * 2 ^ 26 + a.toNat * 2 ^ 21 + b.toNat * 2 ^ 16 + i % 65536)

/-- R241: the condition, its independence of bits 25 to 0, and that the error records nothing
(the rule gives it no data, the spec's decision D7): any two failing words have one result. -/
def Obligations.UnknownOpcodeExactly : Prop :=
  (∀ w : Word, decode w = .error .unknownOpcode ↔ opcode w ∉ [0x00, 0x02, 0x03] ++ immediateOpcodes) ∧
  (∀ w v : Word, decode w = .error .unknownOpcode → opcode v = opcode w → decode v = .error .unknownOpcode) ∧
  (∀ w v : Word, opcode w ∉ [0x00, 0x02, 0x03] ++ immediateOpcodes → opcode v ∉ [0x00, 0x02, 0x03] ++ immediateOpcodes →
    decode w = decode v) ∧
  decode 0xF8000000 = .error .unknownOpcode

/-- R242: the condition, its independence of bits 25 to 6, and that the error records nothing
(the rule gives it no data, the spec's decision D7): any two failing words have one result. -/
def Obligations.UnknownFunctionExactly : Prop :=
  (∀ w : Word, decode w = .error .unknownFunction ↔ opcode w = 0x00 ∧ functionCode w ∉ recognisedFunctions) ∧
  (∀ w v : Word, decode w = .error .unknownFunction → opcode v = 0x00 → functionCode v = functionCode w →
    decode v = .error .unknownFunction) ∧
  (∀ w v : Word, opcode w = 0x00 → functionCode w ∉ recognisedFunctions → opcode v = 0x00 →
    functionCode v ∉ recognisedFunctions → decode w = decode v) ∧
  decode 0x0000003F = .error .unknownFunction ∧ decode 0x0000000C = .error .unknownFunction

/-- From R244 and R245: an error is a returned value, with no instruction beside it and no stop. The model's choices it rests on: the word
held or pending and the results received (notes/assumptions/1.md, 3.md), and a caller that goes on to its next word (6.md). -/
def Obligations.ErrorIsAnsweredAndNeverSoftened : Prop :=
  ∀ (s : State) (e : DecodeError), decode (s.pending.headD s.word) = .error e →
    ∃ t, step s = .next t ∧ t.returned = s.returned ++ [.error e] ∧
      (∀ i, OrError.value i ∈ t.returned → OrError.value i ∈ s.returned) ∧
      t.pending = s.pending.tail ∧ t.word = s.pending.headD s.word ∧
      t.out.status = (match e with | .unknownOpcode => 1 | .unknownFunction => 2) ∧
      t.out.form = 0 ∧ t.out.opTag = 0 ∧ t.out.functTag = 0 ∧ t.out.rs = 0 ∧ t.out.rt = 0 ∧ t.out.rd = 0 ∧
      t.out.shamt = 0 ∧ t.out.imm = 0 ∧ t.out.target = 0 ∧
      (∀ w rest, t.pending = w :: rest → ∃ u, step t = .next u ∧ u.returned = t.returned ++ [decode w])

/-- From R248: a failing word, then a valid one, then the failing word again. The model's choices it rests on: the pending words and the
results received (notes/assumptions/1.md, 3.md), and a caller that presents its next word after an error (6.md). -/
def Obligations.ErrorsDoNotStick : Prop :=
  ∀ (s : State) (bad good : Word) (rest : List Word) (e : DecodeError) (i : Instruction),
    s.pending = bad :: good :: bad :: rest → decode bad = .error e → decode good = .value i →
      Host.Core.run Sys2Proof.core 3 s = .next
        { word := bad, pending := rest, out := errorPorts (match e with | .unknownOpcode => 1 | .unknownFunction => 2),
          returned := s.returned ++ [.error e, .value i, .error e] }

/-- R30, R137 (derived): a decoded value is in range and its tag is the word's code. -/
def Obligations.LegalFormWithAgreeingTag : Prop :=
  ∀ (w : Word) (i : Instruction), decode w = .value i →
    i.legal = true ∧
    (match i with
      | .register f _ _ _ _ => i.opTag = some .registerTrigger ∧ opcode w = 0x00 ∧ f.code = functionCode w
      | .jump j _ => i.opTag = none ∧ j.code = opcode w
      | .immediate t _ _ _ => i.opTag = some (.operation t) ∧ i.opTag ≠ some .registerTrigger ∧ t.code = opcode w)

/-- R79: decoding an encoded well-formed instruction gives it back, every operand at every value. -/
def Obligations.DecodeEncodeRoundTrip : Prop :=
  ∀ i : Instr, i.wellFormed = true → decodeInstr (encode i) = .value i

/-- R138 (derived): a successful decode determines its word. -/
def Obligations.EncodeDecodeRoundTrip : Prop :=
  (∀ (w : Word) (i : Instr), decodeInstr w = .value i → i.wellFormed = true ∧ encode i = w) ∧
  (∀ (w v : Word) (i : Instruction), decode w = .value i → decode v = .value i → w = v)

/-- R30, R138 (derived): every legal value is the decode of exactly one word. -/
def Obligations.EveryLegalValueHasExactlyOneWord : Prop :=
  ∀ i : Instruction, i.legal = true → ∃! w : Word, decode w = .value i

/-- R79 (derived): the words of the result notation, as numbers. -/
def Obligations.EncodingFormulas : Prop :=
  (∀ (f : FunctTag) (rs rt rd : RegIndex) (shamt : ShiftAmount),
    (encodeRegister f rs rt rd shamt).toNat =
      rs.toNat * 2 ^ 21 + rt.toNat * 2 ^ 16 + rd.toNat * 2 ^ 11 + shamt.toNat * 2 ^ 6 + f.code.toNat) ∧
  (∀ (j : JumpTag) (target : Word), targetInRange target = true →
    (encodeJump j target).toNat = j.code.toNat * 2 ^ 26 + target.toNat) ∧
  (∀ (t : ImmTag) (rs rt : RegIndex) (imm : Int), immInRange imm = true →
    ((encodeImmediate t rs rt imm).toNat : Int) =
      t.code.toNat * 2 ^ 26 + rs.toNat * 2 ^ 21 + rt.toNat * 2 ^ 16 + imm % 65536)

/-- R72 (derived): the rows of the opcode table. -/
def Obligations.MatchAndMaskSelectTheRow : Prop :=
  (∀ (o : Operation) (w : Word), w &&& o.mask = o.matchBits ↔ ∃ i, decode w = .value i ∧ i.operation = o) ∧
  (∀ (o p : Operation) (w : Word), w &&& o.mask = o.matchBits → w &&& p.mask = p.matchBits → o = p) ∧
  (∀ w : Word, (∃ e, decode w = .error e) ↔ ∀ o ∈ Operation.all, w &&& o.mask ≠ o.matchBits) ∧
  Operation.all.length = 37 ∧ Operation.all.Nodup ∧ ∀ o : Operation, o ∈ Operation.all

/-- R77 (derived): the partition of the word space, with the counts of R9. -/
def Obligations.WordSpaceCounts : Prop :=
  Nat.card (Subtype (fun w : Word => DecodeResult.outcomeClass (decode w) = .registerForm)) = Config.registerTags * 2 ^ 20 ∧
  Nat.card (Subtype (fun w : Word => DecodeResult.outcomeClass (decode w) = .unknownFunction)) =
    Config.unrecognisedFunctions * 2 ^ 20 ∧
  Nat.card (Subtype (fun w : Word => DecodeResult.outcomeClass (decode w) = .jumpForm)) = Config.jumpTags * 2 ^ 26 ∧
  Nat.card (Subtype (fun w : Word => DecodeResult.outcomeClass (decode w) = .immediateForm)) =
    Config.immediateTags * 2 ^ 26 ∧
  Nat.card (Subtype (fun w : Word => DecodeResult.outcomeClass (decode w) = .unknownOpcode)) =
    Config.unrecognisedOpcodes * 2 ^ 26

/-- R140 to R147, the spec's own port rendering (spec/92_eei_decisions.md D2 to D6): the ports of `decode(word)` in terms of the word. -/
def Obligations.PortsInTermsOfTheWord : Prop :=
  ∀ w : Word,
    let p := Ports.ofResult (decode w)
    (p.status = 1 ↔ opcode w ∈ unrecognisedOpcodes) ∧
    (p.status = 2 ↔ opcode w = 0x00 ∧ functionCode w ∈ unrecognisedFunctions) ∧
    p.status ≠ 3 ∧ (p.form = 0 ↔ p.status ≠ 0) ∧
    (p.form = 1 ↔ opcode w = 0x00 ∧ functionCode w ∈ recognisedFunctions) ∧
    (p.form = 2 ↔ opcode w = 0x02 ∨ opcode w = 0x03) ∧
    (p.form = 3 ↔ opcode w ∈ immediateOpcodes) ∧
    p.opTag = (if p.status = 0 then opcode w else 0) ∧
    p.functTag = (if p.form = 1 then functionCode w else 0) ∧
    p.rs = (if p.form = 1 ∨ p.form = 3 then sourceRegister w else 0) ∧
    p.rt = (if p.form = 1 ∨ p.form = 3 then targetRegister w else 0) ∧
    p.rd = (if p.form = 1 then destinationRegister w else 0) ∧
    p.shamt = (if p.form = 1 then shiftAmount w else 0) ∧
    p.imm = (if p.form = 3 then immediateBits w else 0) ∧
    p.target = (if p.form = 2 then targetAddress w else 0)

/-- R147 (derived), the spec's law L-14: the port rendering is faithful. -/
def Obligations.PortsReadBackTheResult : Prop :=
  (∀ r : DecodeResult, DecodeResult.legal r = true → (Ports.ofResult r).readBack = some r) ∧
  (∀ r q : DecodeResult, DecodeResult.legal r = true → DecodeResult.legal q = true →
    Ports.ofResult r = Ports.ofResult q → r = q) ∧
  (∀ w : Word, (Ports.ofResult (decode w)).readBack = some (decode w) ∧ (Ports.ofResult (decode w)).drivable)

/-- Completion, result and frame of each register operation named (spec/43_register_ops.md R160; the ports are the spec's own rendering,
D2 to D6; the state around them is notes/assumptions/1.md): only the ports and the caller's results change. -/
def Obligations.ShiftMoveAndMultiplyOpsDeliver : Prop :=
  ∀ (s : State) (rs rt rd : RegIndex) (shamt : ShiftAmount),
    exec (.shiftLeftLogical rs rt rd shamt) s =
      .next (answered s (registerPorts 0x00 rs rt rd shamt) (.value (.register .shiftLeftLogical rs rt rd shamt))) ∧
    exec (.shiftRightLogical rs rt rd shamt) s =
      .next (answered s (registerPorts 0x02 rs rt rd shamt) (.value (.register .shiftRightLogical rs rt rd shamt))) ∧
    exec (.shiftRightArithmetic rs rt rd shamt) s =
      .next (answered s (registerPorts 0x03 rs rt rd shamt) (.value (.register .shiftRightArithmetic rs rt rd shamt))) ∧
    exec (.jumpRegister rs rt rd shamt) s =
      .next (answered s (registerPorts 0x08 rs rt rd shamt) (.value (.register .jumpRegister rs rt rd shamt))) ∧
    exec (.moveFromHi rs rt rd shamt) s =
      .next (answered s (registerPorts 0x10 rs rt rd shamt) (.value (.register .moveFromHi rs rt rd shamt))) ∧
    exec (.moveFromLo rs rt rd shamt) s =
      .next (answered s (registerPorts 0x12 rs rt rd shamt) (.value (.register .moveFromLo rs rt rd shamt))) ∧
    exec (.multiply rs rt rd shamt) s =
      .next (answered s (registerPorts 0x18 rs rt rd shamt) (.value (.register .multiply rs rt rd shamt))) ∧
    exec (.multiplyUnsigned rs rt rd shamt) s =
      .next (answered s (registerPorts 0x19 rs rt rd shamt) (.value (.register .multiplyUnsigned rs rt rd shamt))) ∧
    exec (.divide rs rt rd shamt) s =
      .next (answered s (registerPorts 0x1A rs rt rd shamt) (.value (.register .divide rs rt rd shamt))) ∧
    exec (.divideUnsigned rs rt rd shamt) s =
      .next (answered s (registerPorts 0x1B rs rt rd shamt) (.value (.register .divideUnsigned rs rt rd shamt)))

/-- Completion, result and frame of each register operation named (spec/43_register_ops.md R160; the ports are the spec's own rendering,
D2 to D6; the state around them is notes/assumptions/1.md): only the ports and the caller's results change. -/
def Obligations.ArithmeticAndLogicOpsDeliver : Prop :=
  ∀ (s : State) (rs rt rd : RegIndex) (shamt : ShiftAmount),
    exec (.add rs rt rd shamt) s =
      .next (answered s (registerPorts 0x20 rs rt rd shamt) (.value (.register .add rs rt rd shamt))) ∧
    exec (.addUnsigned rs rt rd shamt) s =
      .next (answered s (registerPorts 0x21 rs rt rd shamt) (.value (.register .addUnsigned rs rt rd shamt))) ∧
    exec (.subtract rs rt rd shamt) s =
      .next (answered s (registerPorts 0x22 rs rt rd shamt) (.value (.register .subtract rs rt rd shamt))) ∧
    exec (.subtractUnsigned rs rt rd shamt) s =
      .next (answered s (registerPorts 0x23 rs rt rd shamt) (.value (.register .subtractUnsigned rs rt rd shamt))) ∧
    exec (.and rs rt rd shamt) s =
      .next (answered s (registerPorts 0x24 rs rt rd shamt) (.value (.register .and rs rt rd shamt))) ∧
    exec (.or rs rt rd shamt) s =
      .next (answered s (registerPorts 0x25 rs rt rd shamt) (.value (.register .or rs rt rd shamt))) ∧
    exec (.xor rs rt rd shamt) s =
      .next (answered s (registerPorts 0x26 rs rt rd shamt) (.value (.register .xor rs rt rd shamt))) ∧
    exec (.nor rs rt rd shamt) s =
      .next (answered s (registerPorts 0x27 rs rt rd shamt) (.value (.register .nor rs rt rd shamt))) ∧
    exec (.setLessThan rs rt rd shamt) s =
      .next (answered s (registerPorts 0x2A rs rt rd shamt) (.value (.register .setLessThan rs rt rd shamt))) ∧
    exec (.setLessThanUnsigned rs rt rd shamt) s =
      .next (answered s (registerPorts 0x2B rs rt rd shamt) (.value (.register .setLessThanUnsigned rs rt rd shamt)))

/-- Completion, result and frame of the jumps (spec/44_jump_ops.md R190, R192: no target computation). The state around the
ports is the model's (notes/assumptions/1.md). For a target of 2^26 or more, which no word decodes to (R29, R146), the result and the port
are the model's choice (notes/assumptions/7.md). -/
def Obligations.JumpOpsDeliver : Prop :=
  ∀ (s : State) (target : Word),
    exec (.jump target) s =
      .next (answered s (jumpPorts 0x02 target) (.value (.jump .jump target))) ∧
    exec (.jumpAndLink target) s =
      .next (answered s (jumpPorts 0x03 target) (.value (.jump .jumpAndLink target)))

/-- Completion, result and frame of each operation named (spec/45_immediate_alu_branch_ops.md): no register or memory is touched, there being none.
The state around the ports is the model's (notes/assumptions/1.md). For an integer outside -32768 to 32767, which no word decodes to (R29),
the result and its pattern modulo 65536 are the model's choice (notes/assumptions/7.md). -/
def Obligations.BranchAndImmediateOpsDeliver : Prop :=
  ∀ (s : State) (rs rt : RegIndex) (imm : Int),
    exec (.branchEqual rs rt imm) s =
      .next (answered s (immediatePorts 0x04 rs rt (BitVec.ofInt 16 imm)) (.value (.immediate .branchEqual rs rt imm))) ∧
    exec (.branchNotEqual rs rt imm) s =
      .next (answered s (immediatePorts 0x05 rs rt (BitVec.ofInt 16 imm)) (.value (.immediate .branchNotEqual rs rt imm))) ∧
    exec (.addImmediate rs rt imm) s =
      .next (answered s (immediatePorts 0x08 rs rt (BitVec.ofInt 16 imm)) (.value (.immediate .addImmediate rs rt imm))) ∧
    exec (.addImmediateUnsigned rs rt imm) s =
      .next (answered s (immediatePorts 0x09 rs rt (BitVec.ofInt 16 imm)) (.value (.immediate .addImmediateUnsigned rs rt imm))) ∧
    exec (.setLessThanImmediate rs rt imm) s =
      .next (answered s (immediatePorts 0x0A rs rt (BitVec.ofInt 16 imm)) (.value (.immediate .setLessThanImmediate rs rt imm))) ∧
    exec (.setLessThanImmediateUnsigned rs rt imm) s =
      .next (answered s (immediatePorts 0x0B rs rt (BitVec.ofInt 16 imm)) (.value (.immediate .setLessThanImmediateUnsigned rs rt imm))) ∧
    exec (.andImmediate rs rt imm) s =
      .next (answered s (immediatePorts 0x0C rs rt (BitVec.ofInt 16 imm)) (.value (.immediate .andImmediate rs rt imm))) ∧
    exec (.orImmediate rs rt imm) s =
      .next (answered s (immediatePorts 0x0D rs rt (BitVec.ofInt 16 imm)) (.value (.immediate .orImmediate rs rt imm))) ∧
    exec (.loadUpperImmediate rs rt imm) s =
      .next (answered s (immediatePorts 0x0F rs rt (BitVec.ofInt 16 imm)) (.value (.immediate .loadUpperImmediate rs rt imm)))

/-- Completion, result and frame of each operation named (spec/46_immediate_load_store_ops.md): no register or memory is touched, there being none.
The state around the ports is the model's (notes/assumptions/1.md). For an integer outside -32768 to 32767, which no word decodes to (R29),
the result and its pattern modulo 65536 are the model's choice (notes/assumptions/7.md). -/
def Obligations.LoadStoreOpsDeliver : Prop :=
  ∀ (s : State) (rs rt : RegIndex) (imm : Int),
    exec (.loadWord rs rt imm) s =
      .next (answered s (immediatePorts 0x23 rs rt (BitVec.ofInt 16 imm)) (.value (.immediate .loadWord rs rt imm))) ∧
    exec (.loadByteUnsigned rs rt imm) s =
      .next (answered s (immediatePorts 0x24 rs rt (BitVec.ofInt 16 imm)) (.value (.immediate .loadByteUnsigned rs rt imm))) ∧
    exec (.loadHalfwordUnsigned rs rt imm) s =
      .next (answered s (immediatePorts 0x25 rs rt (BitVec.ofInt 16 imm)) (.value (.immediate .loadHalfwordUnsigned rs rt imm))) ∧
    exec (.storeByte rs rt imm) s =
      .next (answered s (immediatePorts 0x28 rs rt (BitVec.ofInt 16 imm)) (.value (.immediate .storeByte rs rt imm))) ∧
    exec (.storeHalfword rs rt imm) s =
      .next (answered s (immediatePorts 0x29 rs rt (BitVec.ofInt 16 imm)) (.value (.immediate .storeHalfword rs rt imm))) ∧
    exec (.storeWord rs rt imm) s =
      .next (answered s (immediatePorts 0x2B rs rt (BitVec.ofInt 16 imm)) (.value (.immediate .storeWord rs rt imm)))

/-- R228 (derived): the only difference between decoding a load and decoding a store is the tag. That each word is presented
next, the pending words and the results received are the model's own (notes/assumptions/1.md, 3.md). -/
def Obligations.LoadsAndStoresDifferInTheTagOnly : Prop :=
  ∀ (s : State) (w v : Word) (t u : ImmTag) (rs rt : RegIndex) (imm : Int),
    w.extractLsb' 0 26 = v.extractLsb' 0 26 → decode w = .value (.immediate t rs rt imm) → opcode v = u.code →
    ∃ x y : State, step (s.presentWord w) = .next x ∧ step (s.presentWord v) = .next y ∧
      y.out = { x.out with opTag := u.code } ∧ y.pending = x.pending ∧
      x.returned = s.returned ++ [.value (.immediate t rs rt imm)] ∧
      y.returned = s.returned ++ [.value (.immediate u rs rt imm)]

/-- A step presents the next word (or holds the one on the port) and runs the instruction it decodes to. The state around the block is
the model's own (notes/assumptions/1.md, 3.md). -/
def Obligations.StepRunsTheDecodedInstruction : Prop :=
  (∀ (s : State) (w : Word) (rest : List Word) (i : Instr), s.pending = w :: rest → decodeInstr w = .value i →
    step s = exec i { s with word := w, pending := rest }) ∧
  (∀ (s : State) (i : Instr), s.pending = [] → decodeInstr s.word = .value i → step s = exec i s) ∧
  (∀ (s : State) (w : Word) (i : Instr), decodeInstr w = .value i →
    step (s.withFetchWord 32 w.toNat) = exec i { s with word := w })

/-- From R17 and R31: one step returns `decode` of its word, drives the ports of that result, and changes nothing else. The model's
choices it rests on: the pending or held word and the results received (notes/assumptions/1.md, 3.md), and an error as a next state (6.md). -/
def Obligations.StepReturnsTheDecodeOfTheWord : Prop :=
  ∀ s : State, step s = .next
    { word := s.pending.headD s.word, pending := s.pending.tail, out := Ports.ofResult (decode (s.pending.headD s.word)),
      returned := s.returned ++ [decode (s.pending.headD s.word)] }

/-- From R281: no evaluation stops, hangs or is refused, for any number of steps. The model's choices it rests on: one result received for
each step, the evaluations of a held word among them (notes/assumptions/1.md, 3.md), and an error as a next state (6.md). -/
def Obligations.EveryRunCompletes : Prop :=
  (∀ s : State, ∃ t, step s = .next t) ∧
  ∀ (k : Nat) (s : State), ∃ t, Host.Core.run Sys2Proof.core k s = .next t ∧ t.returned.length = s.returned.length + k

/-- The state after reset is safe; the reset values are those of notes/assumptions/2.md and spec/10_state.md R36. -/
def Obligations.SafeAtReset : Prop :=
  State.reset.safe ∧ State.reset.pending = [] ∧ State.reset.returned = [] ∧
  State.reset.out = Ports.ofResult (decode State.reset.word)

/-- From R148, U6 and R29: combinational outputs, drivable port values, results in range. The caller's results, their pairing with the word
on the port (R279 makes the pairing the caller's obligation) and the word a step presents are the model's own (notes/assumptions/1.md, 3.md). -/
def Obligations.StepKeepsSafe : Prop :=
  ∀ s t : State, s.safe → step s = .next t → t.safe

/-- From R19: the result is a function of the present word alone, whatever came before and whatever the other copies are. The model's
choices it rests on: the pending or held word and the results received (notes/assumptions/1.md, 3.md), and steps of one copy (4.md). -/
def Obligations.NothingIsCarriedBetweenEvaluations : Prop :=
  (∀ s t s' t' : State, s.pending.headD s.word = t.pending.headD t.word → step s = .next s' → step t = .next t' →
    s'.out = t'.out ∧ s'.word = t'.word ∧
    ∃ r, s'.returned = s.returned ++ [r] ∧ t'.returned = t.returned ++ [r]) ∧
  (∀ (m n : Nat) (j : Fin m) (k : Fin n) (c c' : Copies m) (d d' : Copies n),
    (c.get j).pending.headD (c.get j).word = (d.get k).pending.headD (d.get k).word →
    Copies.stepAt j c = .next c' → Copies.stepAt k d = .next d' →
    (c'.get j).out = (d'.get k).out ∧
    ∃ r, (c'.get j).returned = (c.get j).returned ++ [r] ∧ (d'.get k).returned = (d.get k).returned ++ [r])

/-- From R276, R277 and spec/95_test_vectors.md section 9: a stream of words, from every state. The model's choices it rests on: the pending
words and the results received (notes/assumptions/1.md, 3.md), and a caller that goes on after an error (6.md). -/
def Obligations.StreamReturnsEachWordsDecode : Prop :=
  ∀ (ws vs : List Word) (s : State), s.pending = ws ++ vs →
    ∃ t, Host.Core.run Sys2Proof.core ws.length s = .next t ∧ t.pending = vs ∧
      t.returned = s.returned ++ ws.map decode ∧ t.word = ws.getLastD s.word ∧
      (ws ≠ [] → t.out = Ports.ofResult (decode t.word))

/-- R46: separate copies under any interleaving (spec/92_eei_decisions.md D14). The interleaving is the model's choice
(notes/assumptions/4.md), and so is the state around each copy (1.md, 3.md). -/
def Obligations.CopiesDoNotInterfere : Prop :=
  ∀ (n : Nat) (order : List (Fin n)) (c : Copies n),
    ∃ d, Copies.run order c = .next d ∧
      ∀ k : Fin n, Host.Core.run Sys2Proof.core (order.count k) (c.get k) = .next (d.get k)

/-- R47, R48, R50, R75, R252 (marked derived): encodings a reader may expect are errors, and the all-zero word is not. -/
def Obligations.ConventionalSystemEncodingsAreErrors : Prop :=
  (∀ w : Word, opcode w = 0x00 → functionCode w ∈ [0x0C, 0x0D, 0x0F, 0x11, 0x13, 0x09] →
    decode w = .error .unknownFunction) ∧
  (∀ w : Word, opcode w ∈ [0x10, 0x11, 0x12, 0x13, 0x01, 0x30, 0x38, 0x2F] → decode w = .error .unknownOpcode) ∧
  decode 0x00000000 = .value (.register .shiftLeftLogical 0 0 0 0) ∧ decode 0xFFFFFFFF = .error .unknownOpcode ∧
  decode 0xF800003F = .error .unknownOpcode

/-- The source's own worked examples S1 to S5, as words written out bit by bit. -/
def Obligations.SourceScenariosDecode : Prop :=
  decodeInstr 0b00100000101001010000000000010100 = .value (.addImmediate 5 5 20) ∧
  decodeInstr 0b00000000100001010001100000100000 = .value (.add 4 5 3 0) ∧
  decodeInstr 0b00001000000000000000000000010000 = .value (.jump 16) ∧
  decodeInstr 0b10001111101010000000000000000100 = .value (.loadWord 29 8 4) ∧
  decodeInstr 0b00000000000000000000000000111111 = .error .unknownFunction ∧
  decodeInstr 0b11111000000000000000000000000000 = .error .unknownOpcode

/-- R97, the part that its rule marks as derived: a consumer that widens the 16-bit pattern by sign extension keeps the integer. No widening
takes place in the block. -/
def Obligations.WideningKeepsTheImmediate : Prop :=
  (∀ w : Word, ((BitVec.ofInt 16 (immediate w)).signExtend 32).toInt = immediate w) ∧
  ∀ (w : Word) (t : ImmTag) (rs rt : RegIndex) (imm : Int), decode w = .value (.immediate t rs rt imm) →
    ((Ports.ofResult (decode w)).imm.signExtend 32).toInt = imm

/-- R140, R147 and R240, the spec's own choices (spec/92_eei_decisions.md D4, D6, D7): on an error the port `status` names it and every other
port is 0, whatever the word. -/
def Obligations.ErrorsDriveOnlyTheirStatus : Prop :=
  (∀ w v : Word, decode w = .error .unknownOpcode → decode v = .error .unknownOpcode →
    Ports.ofResult (decode w) = errorPorts 1 ∧ Ports.ofResult (decode v) = Ports.ofResult (decode w)) ∧
  (∀ w v : Word, decode w = .error .unknownFunction → decode v = .error .unknownFunction →
    Ports.ofResult (decode w) = errorPorts 2 ∧ Ports.ofResult (decode v) = Ports.ofResult (decode w))
end

