-- ==== Sys2Proof/Laws/Decode.lean ====
section
/-! SUPPORT. What the extractor, the classifier and the builder give, said once each: the value of a slice as a number, the two
tables read both ways, and `decode` case by case. -/

namespace Sys2Proof

/-! ### The extractions as numbers (R90 to R98) -/

theorem opcode_toNat (w : Word) : (opcode w).toNat = w.toNat / 2 ^ 26 % 2 ^ 6 := by
  simp [opcode, BitVec.extractLsb'_toNat, Nat.shiftRight_eq_div_pow]

theorem sourceRegister_toNat (w : Word) : (sourceRegister w).toNat = w.toNat / 2 ^ 21 % 2 ^ 5 := by
  simp [sourceRegister, BitVec.extractLsb'_toNat, Nat.shiftRight_eq_div_pow]

theorem targetRegister_toNat (w : Word) : (targetRegister w).toNat = w.toNat / 2 ^ 16 % 2 ^ 5 := by
  simp [targetRegister, BitVec.extractLsb'_toNat, Nat.shiftRight_eq_div_pow]

theorem destinationRegister_toNat (w : Word) : (destinationRegister w).toNat = w.toNat / 2 ^ 11 % 2 ^ 5 := by
  simp [destinationRegister, BitVec.extractLsb'_toNat, Nat.shiftRight_eq_div_pow]

theorem shiftAmount_toNat (w : Word) : (shiftAmount w).toNat = w.toNat / 2 ^ 6 % 2 ^ 5 := by
  simp [shiftAmount, BitVec.extractLsb'_toNat, Nat.shiftRight_eq_div_pow]

theorem functionCode_toNat (w : Word) : (functionCode w).toNat = w.toNat % 2 ^ 6 := by
  simp [functionCode, BitVec.extractLsb'_toNat]

theorem immediateBits_toNat (w : Word) : (immediateBits w).toNat = w.toNat % 2 ^ 16 := by
  simp [immediateBits, BitVec.extractLsb'_toNat]

theorem targetAddress_toNat (w : Word) : (targetAddress w).toNat = w.toNat % 2 ^ 26 := by
  simp [targetAddress, BitVec.extractLsb'_toNat]; omega

/-! ### Match and mask as fields (R72) -/

/-- A word under a register row's mask is its opcode and function code (R72, R62). -/
theorem and_registerMask (w : Word) (fc : Code) :
    w &&& (0xFC00003F : Word) = fc.setWidth 32 ↔ opcode w = 0 ∧ functionCode w = fc := by
  constructor
  · intro h
    have hb : ∀ i, (w &&& (0xFC00003F : Word)).getLsbD i = (fc.setWidth 32).getLsbD i := fun i => by rw [h]
    constructor
    · apply BitVec.eq_of_getLsbD_eq
      intro i hi
      have := hb (26 + i)
      interval_cases i <;> simpa [opcode] using this
    · apply BitVec.eq_of_getLsbD_eq
      intro i hi
      have := hb i
      interval_cases i <;> simpa [functionCode] using this
  · rintro ⟨ho, rfl⟩
    apply BitVec.eq_of_getLsbD_eq
    intro i hi
    have hz : ∀ j, (opcode w).getLsbD j = false := fun j => by simp [ho]
    by_cases h26 : 26 ≤ i
    · have := hz (i - 26)
      interval_cases i <;> simpa [opcode, functionCode] using this
    · have : i < 26 := by omega
      interval_cases i <;> simp [functionCode]

/-- A word under a jump or immediate row's mask is its opcode (R72, R63, R64). -/
theorem and_opcodeMask (w : Word) (op : Code) : w &&& (0xFC000000 : Word) = op ++ (0 : BitVec 26) ↔ opcode w = op := by
  constructor
  · intro h
    have hb : ∀ i, (w &&& (0xFC000000 : Word)).getLsbD i = (op ++ (0 : BitVec 26)).getLsbD i := fun i => by rw [h]
    apply BitVec.eq_of_getLsbD_eq
    intro i hi
    have := hb (26 + i)
    rw [BitVec.getLsbD_append] at this
    interval_cases i <;> simpa [opcode] using this
  · rintro rfl
    apply BitVec.eq_of_getLsbD_eq
    intro i hi
    rw [BitVec.getLsbD_append]
    interval_cases i <;> simp [opcode]

/-! ### The two tables (R113, R115) read both ways -/

theorem lookupImmediate_code (t : ImmTag) : lookupImmediate t.code = .value t := by cases t <;> rfl

theorem lookupImmediate_eq_value {op : Code} {t : ImmTag} : lookupImmediate op = .value t ↔ t.code = op := by
  constructor
  · revert op t
    have h : ∀ op : Code, ∀ t : ImmTag, lookupImmediate op = .value t → t.code = op := by
      intro op t
      cases t <;> revert op <;> decide
    exact fun {op t} => h op t
  · rintro rfl; exact lookupImmediate_code t

theorem classifyFunction_code (f : FunctTag) : classifyFunction f.code = .value f := by cases f <;> rfl

theorem classifyFunction_eq_value {fc : Code} {f : FunctTag} : classifyFunction fc = .value f ↔ f.code = fc := by
  constructor
  · revert fc f
    have h : ∀ fc : Code, ∀ f : FunctTag, classifyFunction fc = .value f → f.code = fc := by
      intro fc f
      cases f <;> revert fc <;> decide
    exact fun {fc f} => h fc f
  · rintro rfl; exact classifyFunction_code f

/-- A failed lookup in `IMM_TABLE` fails with `UnknownOpcode`, never with the other error (R119). -/
theorem lookupImmediate_error {op : Code} {e : DecodeError} (h : lookupImmediate op = .error e) : e = .unknownOpcode := by
  unfold lookupImmediate at h
  split at h <;> simp_all

/-- A failed lookup in `FUNCT_TABLE` fails with `UnknownFunction`, never with the other error (R119). -/
theorem classifyFunction_error {fc : Code} {e : DecodeError} (h : classifyFunction fc = .error e) :
    e = .unknownFunction := by
  unfold classifyFunction at h
  split at h <;> simp_all

theorem ImmTag.code_ne (t : ImmTag) : t.code ≠ 0x00 ∧ t.code ≠ 0x02 ∧ t.code ≠ 0x03 := by cases t <;> decide

/-! ### `decode`, step by step (R131 to R133) -/

theorem decode_of_opcode_zero {w : Word} (h : opcode w = 0x00) : decode w = decodeRegister w := if_pos h

theorem decode_of_opcode_jump {w : Word} (h : opcode w = 0x02 ∨ opcode w = 0x03) : decode w = decodeJump w := by
  have h0 : opcode w ≠ 0x00 := by rcases h with h | h <;> rw [h] <;> decide
  rw [decode, if_neg h0, if_pos h]

theorem decode_of_opcode_other {w : Word} (h0 : opcode w ≠ 0x00) (h2 : opcode w ≠ 0x02) (h3 : opcode w ≠ 0x03) :
    decode w = decodeImmediate w := by rw [decode, if_neg h0, if_neg (not_or.2 ⟨h2, h3⟩)]

/-- When a word is a register operation, and which one (R160). -/
theorem decode_eq_register {w : Word} {f : FunctTag} {rs rt rd : RegIndex} {shamt : ShiftAmount} :
    decode w = .value (.register f rs rt rd shamt) ↔
      opcode w = 0x00 ∧ functionCode w = f.code ∧ sourceRegister w = rs ∧ targetRegister w = rt ∧
        destinationRegister w = rd ∧ shiftAmount w = shamt := by
  by_cases h0 : opcode w = 0x00
  · rw [decode_of_opcode_zero h0, decodeRegister]
    cases h : classifyFunction (functionCode w) with
    | value g =>
      have hg := classifyFunction_eq_value.1 h
      constructor
      · intro he
        simp only [OrError.value.injEq, Instruction.register.injEq] at he
        obtain ⟨rfl, rfl, rfl, rfl, rfl⟩ := he
        exact ⟨h0, hg.symm, rfl, rfl, rfl, rfl⟩
      · rintro ⟨-, hf, rfl, rfl, rfl, rfl⟩
        rw [hf, classifyFunction_code] at h
        simp_all
    | error e =>
      simp only [reduceCtorEq, false_iff]
      rintro ⟨-, hf, -⟩
      rw [hf, classifyFunction_code] at h
      simp at h
  · simp only [h0, false_and, iff_false]
    unfold decode decodeJump decodeImmediate
    simp only [h0, if_false]
    split
    · simp
    · split <;> simp

/-- When a word is a jump, and which one (R190). -/
theorem decode_eq_jump {w : Word} {j : JumpTag} {target : Word} :
    decode w = .value (.jump j target) ↔ opcode w = j.code ∧ targetAddress w = target := by
  by_cases h : opcode w = 0x02 ∨ opcode w = 0x03
  · rw [decode_of_opcode_jump h, decodeJump]
    rcases h with h | h <;> cases j <;> simp [h, JumpTag.code]
  · have hj : opcode w ≠ j.code := by
      intro hc
      cases j
      · exact h (.inl hc)
      · exact h (.inr hc)
    simp only [hj, false_and, iff_false]
    unfold decode decodeRegister decodeImmediate
    simp only [h, if_false]
    split
    · split <;> simp
    · split <;> simp

/-- When a word is an immediate operation, and which one (R200). -/
theorem decode_eq_immediate {w : Word} {t : ImmTag} {rs rt : RegIndex} {imm : Int} :
    decode w = .value (.immediate t rs rt imm) ↔
      opcode w = t.code ∧ sourceRegister w = rs ∧ targetRegister w = rt ∧ immediate w = imm := by
  have hn := ImmTag.code_ne t
  by_cases h0 : opcode w = 0x00
  · have : opcode w ≠ t.code := by rw [h0]; exact fun h => hn.1 h.symm
    simp only [this, false_and, iff_false]
    rw [decode_of_opcode_zero h0, decodeRegister]
    split <;> simp
  by_cases hj : opcode w = 0x02 ∨ opcode w = 0x03
  · have : opcode w ≠ t.code := by
      rcases hj with h | h <;> rw [h]
      · exact fun h => hn.2.1 h.symm
      · exact fun h => hn.2.2 h.symm
    simp only [this, false_and, iff_false]
    rw [decode_of_opcode_jump hj, decodeJump]
    simp
  · obtain ⟨h2, h3⟩ := not_or.1 hj
    rw [decode_of_opcode_other h0 h2 h3, decodeImmediate]
    cases h : lookupImmediate (opcode w) with
    | value u =>
      have hu := lookupImmediate_eq_value.1 h
      constructor
      · intro he
        simp only [OrError.value.injEq, Instruction.immediate.injEq] at he
        obtain ⟨rfl, rfl, rfl, rfl⟩ := he
        exact ⟨hu.symm, rfl, rfl, rfl⟩
      · rintro ⟨ht, rfl, rfl, rfl⟩
        rw [ht, lookupImmediate_code] at h
        simp_all
    | error e =>
      simp only [reduceCtorEq, false_iff]
      rintro ⟨ht, -⟩
      rw [ht, lookupImmediate_code] at h
      simp at h

/-! ### A value and the constructor that names it -/

theorem toInstruction_toInstr (i : Instruction) : i.toInstr.toInstruction = i := by
  cases i with
  | register f rs rt rd shamt => cases f <;> rfl
  | jump j target => cases j <;> rfl
  | immediate t rs rt imm => cases t <;> rfl

theorem decodeInstr_eq_value {w : Word} {i : Instr} (h : decodeInstr w = .value i) : decode w = .value i.toInstruction := by
  unfold decodeInstr at h
  split at h
  · rename_i j hj
    simp only [OrError.value.injEq] at h
    rw [hj, ← h, toInstruction_toInstr]
  · simp at h

theorem decodeInstr_eq_error {w : Word} {e : DecodeError} (h : decodeInstr w = .error e) : decode w = .error e := by
  unfold decodeInstr at h
  split at h <;> simp_all

end Sys2Proof
end

