-- ==== Sys2Proof/Laws/Encode.lean ====
section
/-! SUPPORT. What the extractor reads from a word put together field by field (spec/30_encoding.md R62 to R64), and the immediate as a
number and as a pattern (R66, R97). -/

namespace Sys2Proof

section Formats

variable (op : Code) (rs rt rd : RegIndex) (shamt : ShiftAmount) (fc : Code) (pattern : BitVec 16) (payload : BitVec 26)

/-! ### Format R (R62) -/

theorem opcode_formatR : opcode (op ++ rs ++ rt ++ rd ++ shamt ++ fc) = op := by
  apply BitVec.eq_of_getLsbD_eq
  intro i hi
  simp only [opcode, BitVec.getLsbD_extractLsb', BitVec.getLsbD_append]
  interval_cases i <;> simp

theorem sourceRegister_formatR : sourceRegister (op ++ rs ++ rt ++ rd ++ shamt ++ fc) = rs := by
  apply BitVec.eq_of_getLsbD_eq
  intro i hi
  simp only [sourceRegister, BitVec.getLsbD_extractLsb', BitVec.getLsbD_append]
  interval_cases i <;> simp

theorem targetRegister_formatR : targetRegister (op ++ rs ++ rt ++ rd ++ shamt ++ fc) = rt := by
  apply BitVec.eq_of_getLsbD_eq
  intro i hi
  simp only [targetRegister, BitVec.getLsbD_extractLsb', BitVec.getLsbD_append]
  interval_cases i <;> simp

theorem destinationRegister_formatR : destinationRegister (op ++ rs ++ rt ++ rd ++ shamt ++ fc) = rd := by
  apply BitVec.eq_of_getLsbD_eq
  intro i hi
  simp only [destinationRegister, BitVec.getLsbD_extractLsb', BitVec.getLsbD_append]
  interval_cases i <;> simp

theorem shiftAmount_formatR : shiftAmount (op ++ rs ++ rt ++ rd ++ shamt ++ fc) = shamt := by
  apply BitVec.eq_of_getLsbD_eq
  intro i hi
  simp only [shiftAmount, BitVec.getLsbD_extractLsb', BitVec.getLsbD_append]
  interval_cases i <;> simp

theorem functionCode_formatR : functionCode (op ++ rs ++ rt ++ rd ++ shamt ++ fc) = fc := by
  apply BitVec.eq_of_getLsbD_eq
  intro i hi
  simp only [functionCode, BitVec.getLsbD_extractLsb', BitVec.getLsbD_append]
  interval_cases i <;> simp

/-! ### Format I (R64) -/

theorem opcode_formatI : opcode (op ++ rs ++ rt ++ pattern) = op := by
  apply BitVec.eq_of_getLsbD_eq
  intro i hi
  simp only [opcode, BitVec.getLsbD_extractLsb', BitVec.getLsbD_append]
  interval_cases i <;> simp

theorem sourceRegister_formatI : sourceRegister (op ++ rs ++ rt ++ pattern) = rs := by
  apply BitVec.eq_of_getLsbD_eq
  intro i hi
  simp only [sourceRegister, BitVec.getLsbD_extractLsb', BitVec.getLsbD_append]
  interval_cases i <;> simp

theorem targetRegister_formatI : targetRegister (op ++ rs ++ rt ++ pattern) = rt := by
  apply BitVec.eq_of_getLsbD_eq
  intro i hi
  simp only [targetRegister, BitVec.getLsbD_extractLsb', BitVec.getLsbD_append]
  interval_cases i <;> simp

theorem immediateBits_formatI : immediateBits (op ++ rs ++ rt ++ pattern) = pattern := by
  apply BitVec.eq_of_getLsbD_eq
  intro i hi
  simp only [immediateBits, BitVec.getLsbD_extractLsb', BitVec.getLsbD_append]
  interval_cases i <;> simp

/-! ### Format J (R63) -/

theorem opcode_formatJ : opcode (op ++ payload) = op := by
  apply BitVec.eq_of_getLsbD_eq
  intro i hi
  simp only [opcode, BitVec.getLsbD_extractLsb', BitVec.getLsbD_append]
  interval_cases i <;> simp

theorem targetAddress_formatJ : targetAddress (op ++ payload) = payload.setWidth 32 := by
  apply BitVec.eq_of_getLsbD_eq
  intro i hi
  simp only [targetAddress, BitVec.getLsbD_setWidth, BitVec.getLsbD_extractLsb', BitVec.getLsbD_append]
  interval_cases i <;> simp

end Formats

/-! ### The immediate (R66, R97) -/

theorem immediateBits_msb (w : Word) : (immediateBits w).msb = w.getLsbD 15 := by
  simp [BitVec.msb_eq_getLsbD_last, immediateBits]

/-- The pattern is recoverable from the number (R97). -/
theorem ofInt_immediate (w : Word) : BitVec.ofInt 16 (immediate w) = immediateBits w := by
  rw [immediate, BitVec.ofInt_toInt]

theorem immediate_mod (w : Word) : immediate w % 65536 = ((immediateBits w).toNat : Int) := by
  have := (immediateBits w).isLt
  rw [immediate, BitVec.toInt_eq_toNat_bmod, Int.bmod_def]
  split <;> omega

end Sys2Proof
end

