-- ==== Sys2Proof/Laws/State.lean ====
section
/-! SUPPORT. One lemma per field of `State` for each update of it: presenting a word and answering a result. -/

namespace Sys2Proof.Machine

@[simp] theorem State.answer_word (r : DecodeResult) (s : State) : (s.answer r).word = s.word := rfl
@[simp] theorem State.answer_pending (r : DecodeResult) (s : State) : (s.answer r).pending = s.pending := rfl
@[simp] theorem State.answer_out (r : DecodeResult) (s : State) : (s.answer r).out = Ports.ofResult r := rfl
@[simp] theorem State.answer_returned (r : DecodeResult) (s : State) :
    (s.answer r).returned = s.returned ++ [r] := rfl

@[simp] theorem State.presentWord_word (s : State) (w : Word) : (s.presentWord w).word = s.word := rfl
@[simp] theorem State.presentWord_pending (s : State) (w : Word) : (s.presentWord w).pending = w :: s.pending := rfl
@[simp] theorem State.presentWord_out (s : State) (w : Word) : (s.presentWord w).out = s.out := rfl
@[simp] theorem State.presentWord_returned (s : State) (w : Word) : (s.presentWord w).returned = s.returned := rfl

@[simp] theorem State.presentNext_word (s : State) : s.presentNext.word = s.pending.headD s.word := by
  rcases s with ⟨w, _ | ⟨v, rest⟩, o, r⟩ <;> rfl

@[simp] theorem State.presentNext_pending (s : State) : s.presentNext.pending = s.pending.tail := by
  rcases s with ⟨w, _ | ⟨v, rest⟩, o, r⟩ <;> rfl

@[simp] theorem State.presentNext_out (s : State) : s.presentNext.out = s.out := by
  rcases s with ⟨w, _ | ⟨v, rest⟩, o, r⟩ <;> rfl

@[simp] theorem State.presentNext_returned (s : State) : s.presentNext.returned = s.returned := by
  rcases s with ⟨w, _ | ⟨v, rest⟩, o, r⟩ <;> rfl

/-- Presenting a word and then the next word: that word is on the port, and the caller's other words are as they were. -/
theorem State.presentNext_presentWord (s : State) (w : Word) : (s.presentWord w).presentNext = { s with word := w } := rfl

end Sys2Proof.Machine
end

