-- ==== Sys2Proof/Laws/Ops.lean ====
section
/-! SUPPORT. Everything the shared operations can do, said once each: they answer a next state in which only the ports and the
caller's results have changed. -/

namespace Sys2Proof.Machine

theorem raise_eq (e : DecodeError) (s : State) : raise e s = .next (s.answer (.error e)) := rfl

theorem deliverRegister_eq (f : FunctTag) (rs rt rd : RegIndex) (shamt : ShiftAmount) (s : State) :
    deliverRegister f rs rt rd shamt s = .next (s.answer (.value (.register f rs rt rd shamt))) := rfl

theorem deliverJump_eq (j : JumpTag) (target : Word) (s : State) :
    deliverJump j target s = .next (s.answer (.value (.jump j target))) := rfl

theorem deliverImmediate_eq (t : ImmTag) (rs rt : RegIndex) (imm : Int) (s : State) :
    deliverImmediate t rs rt imm s = .next (s.answer (.value (.immediate t rs rt imm))) := rfl

/-- R141: `form` is 0 exactly when `status` is not. -/
theorem Ports.ofResult_form_eq_zero (r : DecodeResult) : (Ports.ofResult r).form = 0 ↔ (Ports.ofResult r).status ≠ 0 := by
  rcases r with ⟨⟨⟩⟩ | ⟨⟨⟩⟩ <;> simp [Ports.ofResult, formPort, statusPort, errorStatus]

/-- R140: the value 3 is never driven. -/
theorem Ports.ofResult_status_ne_three (r : DecodeResult) : (Ports.ofResult r).status ≠ 3 := by
  rcases r with ⟨⟨⟩⟩ | ⟨⟨⟩⟩ <;> simp [Ports.ofResult, statusPort, errorStatus]

end Sys2Proof.Machine
end

