-- ==== Sys2Proof/Laws/Exec.lean ====
section
/-! SUPPORT. What an instruction, an evaluation and a step can do, said once: each answers a next state. -/

namespace Sys2Proof.Machine

/-- An instruction answers the value of its row of the opcode table. -/
theorem exec_eq (i : Instr) (s : State) : exec i s = .next (s.answer (.value i.toInstruction)) := by cases i <;> rfl

/-- An evaluation answers the decode of the word on the port, an error as well as an instruction (R17, R244). -/
theorem evaluate_eq (s : State) : evaluate s = .next (s.answer (decode s.word)) := by
  unfold evaluate
  cases h : decodeInstr s.word with
  | value i => rw [decodeInstr_eq_value h, ← exec_eq]
  | error e => rw [decodeInstr_eq_error h, ← raise_eq]

theorem step_eq (s : State) : step s = .next (s.presentNext.answer (decode s.presentNext.word)) := evaluate_eq _

/-- The inversion of a step. -/
theorem step_next {s t : State} (h : step s = .next t) : t = s.presentNext.answer (decode s.presentNext.word) := by
  rw [step_eq] at h
  exact (Host.Outcome.next.inj h).symm

theorem core_run_succ (k : Nat) (s : State) :
    Host.Core.run Sys2Proof.core (k + 1) s =
      Host.Core.run Sys2Proof.core k (s.presentNext.answer (decode s.presentNext.word)) := by
  have h : Sys2Proof.core.step s = .next (s.presentNext.answer (decode s.presentNext.word)) := step_eq s
  simp only [Host.Core.run, h]

theorem Copies.stepAt_eq {n : Nat} (k : Fin n) (c : Copies n) :
    Copies.stepAt k c = .next (c.set k ((c.get k).presentNext.answer (decode (c.get k).presentNext.word))) := by
  rw [Copies.stepAt, step_eq]

end Sys2Proof.Machine
end

