-- ==== Sys2Proof/Laws/PerInstr.lean ====
section
/-! SUPPORT. Per-instruction laws: naming an instruction's value gives the instruction back, so no row's value is another row's. -/

namespace Sys2Proof.Laws.Naming

/-- The value of the row is named by the row, with every operand. -/
def Statement (i : Instr) : Prop := i.toInstruction.toInstr = i

theorem shiftLeftLogical (rs rt rd : RegIndex) (shamt : ShiftAmount) : Statement (.shiftLeftLogical rs rt rd shamt) := rfl
theorem shiftRightLogical (rs rt rd : RegIndex) (shamt : ShiftAmount) : Statement (.shiftRightLogical rs rt rd shamt) := rfl
theorem shiftRightArithmetic (rs rt rd : RegIndex) (shamt : ShiftAmount) : Statement (.shiftRightArithmetic rs rt rd shamt) := rfl
theorem jumpRegister (rs rt rd : RegIndex) (shamt : ShiftAmount) : Statement (.jumpRegister rs rt rd shamt) := rfl
theorem moveFromHi (rs rt rd : RegIndex) (shamt : ShiftAmount) : Statement (.moveFromHi rs rt rd shamt) := rfl
theorem moveFromLo (rs rt rd : RegIndex) (shamt : ShiftAmount) : Statement (.moveFromLo rs rt rd shamt) := rfl
theorem multiply (rs rt rd : RegIndex) (shamt : ShiftAmount) : Statement (.multiply rs rt rd shamt) := rfl
theorem multiplyUnsigned (rs rt rd : RegIndex) (shamt : ShiftAmount) : Statement (.multiplyUnsigned rs rt rd shamt) := rfl
theorem divide (rs rt rd : RegIndex) (shamt : ShiftAmount) : Statement (.divide rs rt rd shamt) := rfl
theorem divideUnsigned (rs rt rd : RegIndex) (shamt : ShiftAmount) : Statement (.divideUnsigned rs rt rd shamt) := rfl
theorem add (rs rt rd : RegIndex) (shamt : ShiftAmount) : Statement (.add rs rt rd shamt) := rfl
theorem addUnsigned (rs rt rd : RegIndex) (shamt : ShiftAmount) : Statement (.addUnsigned rs rt rd shamt) := rfl
theorem subtract (rs rt rd : RegIndex) (shamt : ShiftAmount) : Statement (.subtract rs rt rd shamt) := rfl
theorem subtractUnsigned (rs rt rd : RegIndex) (shamt : ShiftAmount) : Statement (.subtractUnsigned rs rt rd shamt) := rfl
theorem and (rs rt rd : RegIndex) (shamt : ShiftAmount) : Statement (.and rs rt rd shamt) := rfl
theorem or (rs rt rd : RegIndex) (shamt : ShiftAmount) : Statement (.or rs rt rd shamt) := rfl
theorem xor (rs rt rd : RegIndex) (shamt : ShiftAmount) : Statement (.xor rs rt rd shamt) := rfl
theorem nor (rs rt rd : RegIndex) (shamt : ShiftAmount) : Statement (.nor rs rt rd shamt) := rfl
theorem setLessThan (rs rt rd : RegIndex) (shamt : ShiftAmount) : Statement (.setLessThan rs rt rd shamt) := rfl
theorem setLessThanUnsigned (rs rt rd : RegIndex) (shamt : ShiftAmount) : Statement (.setLessThanUnsigned rs rt rd shamt) := rfl
theorem jump (target : Word) : Statement (.jump target) := rfl
theorem jumpAndLink (target : Word) : Statement (.jumpAndLink target) := rfl
theorem branchEqual (rs rt : RegIndex) (imm : Int) : Statement (.branchEqual rs rt imm) := rfl
theorem branchNotEqual (rs rt : RegIndex) (imm : Int) : Statement (.branchNotEqual rs rt imm) := rfl
theorem addImmediate (rs rt : RegIndex) (imm : Int) : Statement (.addImmediate rs rt imm) := rfl
theorem addImmediateUnsigned (rs rt : RegIndex) (imm : Int) : Statement (.addImmediateUnsigned rs rt imm) := rfl
theorem setLessThanImmediate (rs rt : RegIndex) (imm : Int) : Statement (.setLessThanImmediate rs rt imm) := rfl
theorem setLessThanImmediateUnsigned (rs rt : RegIndex) (imm : Int) : Statement (.setLessThanImmediateUnsigned rs rt imm) := rfl
theorem andImmediate (rs rt : RegIndex) (imm : Int) : Statement (.andImmediate rs rt imm) := rfl
theorem orImmediate (rs rt : RegIndex) (imm : Int) : Statement (.orImmediate rs rt imm) := rfl
theorem loadUpperImmediate (rs rt : RegIndex) (imm : Int) : Statement (.loadUpperImmediate rs rt imm) := rfl
theorem loadWord (rs rt : RegIndex) (imm : Int) : Statement (.loadWord rs rt imm) := rfl
theorem loadByteUnsigned (rs rt : RegIndex) (imm : Int) : Statement (.loadByteUnsigned rs rt imm) := rfl
theorem loadHalfwordUnsigned (rs rt : RegIndex) (imm : Int) : Statement (.loadHalfwordUnsigned rs rt imm) := rfl
theorem storeByte (rs rt : RegIndex) (imm : Int) : Statement (.storeByte rs rt imm) := rfl
theorem storeHalfword (rs rt : RegIndex) (imm : Int) : Statement (.storeHalfword rs rt imm) := rfl
theorem storeWord (rs rt : RegIndex) (imm : Int) : Statement (.storeWord rs rt imm) := rfl

end Sys2Proof.Laws.Naming
end

