-- ==== Sys2Proof/Tests/Slice0.lean ====
section
/-! SUPPORT. The model's own tests. Every expected value is the spec's: the vectors of spec/95_test_vectors.md or the encodings of
spec/30_encoding.md, never the model's own answer. After them, for every statement with hypotheses, a concrete state or word
that meets them. -/

namespace Sys2Proof.Tests

open Sys2Proof.Machine Sys2Proof.Stated

/-! ### WellFormed: one ill-formed term for each check, and the last well-formed value beside it (R29) -/

theorem test_wellFormed_refuses_target_2_26 :
    Instr.wellFormed (.jump 0x04000000) = false ∧ Instr.wellFormed (.jumpAndLink 0x04000000) = false ∧
    Instr.wellFormed (.jump 0xFFFFFFFF) = false := by decide

theorem test_wellFormed_accepts_target_below_2_26 :
    Instr.wellFormed (.jump 0x03FFFFFF) = true ∧ Instr.wellFormed (.jumpAndLink 0x00000000) = true := by decide

theorem test_wellFormed_refuses_imm_above :
    Instr.wellFormed (.branchEqual 0 0 32768) = false ∧ Instr.wellFormed (.branchNotEqual 0 0 32768) = false ∧
    Instr.wellFormed (.addImmediate 0 0 32768) = false ∧ Instr.wellFormed (.addImmediateUnsigned 0 0 65535) = false ∧
    Instr.wellFormed (.setLessThanImmediate 0 0 32768) = false ∧
    Instr.wellFormed (.setLessThanImmediateUnsigned 0 0 65535) = false ∧
    Instr.wellFormed (.andImmediate 0 0 65535) = false ∧ Instr.wellFormed (.orImmediate 0 0 65535) = false := by decide

theorem test_wellFormed_refuses_imm_below :
    Instr.wellFormed (.loadUpperImmediate 0 0 (-32769)) = false ∧ Instr.wellFormed (.loadWord 0 0 (-32769)) = false ∧
    Instr.wellFormed (.loadByteUnsigned 0 0 (-32769)) = false ∧
    Instr.wellFormed (.loadHalfwordUnsigned 0 0 (-32769)) = false ∧
    Instr.wellFormed (.storeByte 0 0 (-32769)) = false ∧ Instr.wellFormed (.storeHalfword 0 0 (-32769)) = false ∧
    Instr.wellFormed (.storeWord 0 0 (-32769)) = false := by decide

theorem test_wellFormed_accepts_imm_bounds :
    Instr.wellFormed (.addImmediate 31 0 32767) = true ∧ Instr.wellFormed (.storeWord 0 31 (-32768)) = true := by decide

/-! ### Decoding, one constructor at a time: the word bit by bit from the row's encoding -/

/-- VR1 of spec/95_test_vectors.md; `000000ssssstttttdddddaaaaa000000` (R162). -/
theorem test_decode_shiftLeftLogical :
    decodeInstr 0b00000000000001010010100101000000 = .value (.shiftLeftLogical 0 5 5 5) ∧
    encode (.shiftLeftLogical 0 5 5 5) = 0b00000000000001010010100101000000 := by decide

/-- VR4 of spec/95_test_vectors.md; `000000ssssstttttdddddaaaaa000010` (R163). -/
theorem test_decode_shiftRightLogical :
    decodeInstr 0b00000000100001110101001011000010 = .value (.shiftRightLogical 4 7 10 11) ∧
    encode (.shiftRightLogical 4 7 10 11) = 0b00000000100001110101001011000010 := by decide

/-- VR7 of spec/95_test_vectors.md; `000000ssssstttttdddddaaaaa000011` (R164). -/
theorem test_decode_shiftRightArithmetic :
    decodeInstr 0b00000000111011001000110110000011 = .value (.shiftRightArithmetic 7 12 17 22) ∧
    encode (.shiftRightArithmetic 7 12 17 22) = 0b00000000111011001000110110000011 := by decide

/-- VR10 of spec/95_test_vectors.md; `000000ssssstttttdddddaaaaa001000` (R165). -/
theorem test_decode_jumpRegister :
    decodeInstr 0b00000001010100011100000001001000 = .value (.jumpRegister 10 17 24 1) ∧
    encode (.jumpRegister 10 17 24 1) = 0b00000001010100011100000001001000 := by decide

/-- VR13 of spec/95_test_vectors.md; `000000ssssstttttdddddaaaaa010000` (R166). -/
theorem test_decode_moveFromHi :
    decodeInstr 0b00000001101101101111101100010000 = .value (.moveFromHi 13 22 31 12) ∧
    encode (.moveFromHi 13 22 31 12) = 0b00000001101101101111101100010000 := by decide

/-- VR16 of spec/95_test_vectors.md; `000000ssssstttttdddddaaaaa010010` (R167). -/
theorem test_decode_moveFromLo :
    decodeInstr 0b00000010000110110011010111010010 = .value (.moveFromLo 16 27 6 23) ∧
    encode (.moveFromLo 16 27 6 23) = 0b00000010000110110011010111010010 := by decide

/-- VR19 of spec/95_test_vectors.md; `000000ssssstttttdddddaaaaa011000` (R168). -/
theorem test_decode_multiply :
    decodeInstr 0b00000010011000000110100010011000 = .value (.multiply 19 0 13 2) ∧
    encode (.multiply 19 0 13 2) = 0b00000010011000000110100010011000 := by decide

/-- VR22 of spec/95_test_vectors.md; `000000ssssstttttdddddaaaaa011001` (R169). -/
theorem test_decode_multiplyUnsigned :
    decodeInstr 0b00000010110001011010001101011001 = .value (.multiplyUnsigned 22 5 20 13) ∧
    encode (.multiplyUnsigned 22 5 20 13) = 0b00000010110001011010001101011001 := by decide

/-- VR25 of spec/95_test_vectors.md; `000000ssssstttttdddddaaaaa011010` (R170). -/
theorem test_decode_divide :
    decodeInstr 0b00000011001010101101111000011010 = .value (.divide 25 10 27 24) ∧
    encode (.divide 25 10 27 24) = 0b00000011001010101101111000011010 := by decide

/-- VR28 of spec/95_test_vectors.md; `000000ssssstttttdddddaaaaa011011` (R171). -/
theorem test_decode_divideUnsigned :
    decodeInstr 0b00000011100011110001000011011011 = .value (.divideUnsigned 28 15 2 3) ∧
    encode (.divideUnsigned 28 15 2 3) = 0b00000011100011110001000011011011 := by decide

/-- VR31 of spec/95_test_vectors.md; `000000ssssstttttdddddaaaaa100000` (R172). -/
theorem test_decode_add :
    decodeInstr 0b00000011111101000100101110100000 = .value (.add 31 20 9 14) ∧
    encode (.add 31 20 9 14) = 0b00000011111101000100101110100000 := by decide

/-- VR34 of spec/95_test_vectors.md; `000000ssssstttttdddddaaaaa100001` (R173). -/
theorem test_decode_addUnsigned :
    decodeInstr 0b00000000010110011000011001100001 = .value (.addUnsigned 2 25 16 25) ∧
    encode (.addUnsigned 2 25 16 25) = 0b00000000010110011000011001100001 := by decide

/-- VR37 of spec/95_test_vectors.md; `000000ssssstttttdddddaaaaa100010` (R174). -/
theorem test_decode_subtract :
    decodeInstr 0b00000000101111101011100100100010 = .value (.subtract 5 30 23 4) ∧
    encode (.subtract 5 30 23 4) = 0b00000000101111101011100100100010 := by decide

/-- VR40 of spec/95_test_vectors.md; `000000ssssstttttdddddaaaaa100011` (R175). -/
theorem test_decode_subtractUnsigned :
    decodeInstr 0b00000001000000111111001111100011 = .value (.subtractUnsigned 8 3 30 15) ∧
    encode (.subtractUnsigned 8 3 30 15) = 0b00000001000000111111001111100011 := by decide

/-- VR43 of spec/95_test_vectors.md; `000000ssssstttttdddddaaaaa100100` (R176). -/
theorem test_decode_and :
    decodeInstr 0b00000001011010000010111010100100 = .value (.and 11 8 5 26) ∧
    encode (.and 11 8 5 26) = 0b00000001011010000010111010100100 := by decide

/-- VR46 of spec/95_test_vectors.md; `000000ssssstttttdddddaaaaa100101` (R177). -/
theorem test_decode_or :
    decodeInstr 0b00000001110011010110000101100101 = .value (.or 14 13 12 5) ∧
    encode (.or 14 13 12 5) = 0b00000001110011010110000101100101 := by decide

/-- VR49 of spec/95_test_vectors.md; `000000ssssstttttdddddaaaaa100110` (R178). -/
theorem test_decode_xor :
    decodeInstr 0b00000010001100101001110000100110 = .value (.xor 17 18 19 16) ∧
    encode (.xor 17 18 19 16) = 0b00000010001100101001110000100110 := by decide

/-- VR52 of spec/95_test_vectors.md; `000000ssssstttttdddddaaaaa100111` (R179). -/
theorem test_decode_nor :
    decodeInstr 0b00000010100101111101011011100111 = .value (.nor 20 23 26 27) ∧
    encode (.nor 20 23 26 27) = 0b00000010100101111101011011100111 := by decide

/-- VR55 of spec/95_test_vectors.md; `000000ssssstttttdddddaaaaa101010` (R180). -/
theorem test_decode_setLessThan :
    decodeInstr 0b00000010111111000000100110101010 = .value (.setLessThan 23 28 1 6) ∧
    encode (.setLessThan 23 28 1 6) = 0b00000010111111000000100110101010 := by decide

/-- VR58 of spec/95_test_vectors.md; `000000ssssstttttdddddaaaaa101011` (R181). -/
theorem test_decode_setLessThanUnsigned :
    decodeInstr 0b00000011010000010100010001101011 = .value (.setLessThanUnsigned 26 1 8 17) ∧
    encode (.setLessThanUnsigned 26 1 8 17) = 0b00000011010000010100010001101011 := by decide

/-- VJ9 and VJ10 of spec/95_test_vectors.md; `000010jjjjjjjjjjjjjjjjjjjjjjjjjj` (R193). -/
theorem test_decode_jump :
    decodeInstr 0b00001011111111111111111111111111 = .value (.jump 0x03FFFFFF) ∧
    decodeInstr 0b00001000010000000000000000000000 = .value (.jump 0x00400000) ∧
    encode (.jump 0x00400000) = 0b00001000010000000000000000000000 := by decide

/-- VJ19 and VJ20 of spec/95_test_vectors.md; `000011jjjjjjjjjjjjjjjjjjjjjjjjjj` (R194). -/
theorem test_decode_jumpAndLink :
    decodeInstr 0b00001111111111111111111111111111 = .value (.jumpAndLink 0x03FFFFFF) ∧
    decodeInstr 0b00001100010000000000000000000000 = .value (.jumpAndLink 0x00400000) ∧
    encode (.jumpAndLink 0x00400000) = 0b00001100010000000000000000000000 := by decide

/-- VI1 and VI3 of spec/95_test_vectors.md; `000100ssssstttttiiiiiiiiiiiiiiii` (R203). -/
theorem test_decode_branchEqual :
    decodeInstr 0b00010000101010000000000000110000 = .value (.branchEqual 5 8 48) ∧
    decodeInstr 0b00010000010000011000000000000000 = .value (.branchEqual 2 1 (-32768)) ∧
    encode (.branchEqual 2 1 (-32768)) = 0b00010000010000011000000000000000 := by decide

/-- VI6 and VI8 of spec/95_test_vectors.md; `000101ssssstttttiiiiiiiiiiiiiiii` (R204). -/
theorem test_decode_branchNotEqual :
    decodeInstr 0b00010100111011110000000010011111 = .value (.branchNotEqual 7 15 159) ∧
    decodeInstr 0b00010100010000011000000000000000 = .value (.branchNotEqual 2 1 (-32768)) ∧
    encode (.branchNotEqual 2 1 (-32768)) = 0b00010100010000011000000000000000 := by decide

/-- VI11 and VI13 of spec/95_test_vectors.md; `001000ssssstttttiiiiiiiiiiiiiiii` (R205). -/
theorem test_decode_addImmediate :
    decodeInstr 0b00100001001101100000000101011000 = .value (.addImmediate 9 22 344) ∧
    decodeInstr 0b00100000010000011000000000000000 = .value (.addImmediate 2 1 (-32768)) ∧
    encode (.addImmediate 2 1 (-32768)) = 0b00100000010000011000000000000000 := by decide

/-- VI16 and VI18 of spec/95_test_vectors.md; `001001ssssstttttiiiiiiiiiiiiiiii` (R206). -/
theorem test_decode_addImmediateUnsigned :
    decodeInstr 0b00100101011111010000001001011011 = .value (.addImmediateUnsigned 11 29 603) ∧
    decodeInstr 0b00100100010000011000000000000000 = .value (.addImmediateUnsigned 2 1 (-32768)) ∧
    encode (.addImmediateUnsigned 2 1 (-32768)) = 0b00100100010000011000000000000000 := by decide

/-- VI21 and VI23 of spec/95_test_vectors.md; `001010ssssstttttiiiiiiiiiiiiiiii` (R207). -/
theorem test_decode_setLessThanImmediate :
    decodeInstr 0b00101001101001000000001110101000 = .value (.setLessThanImmediate 13 4 936) ∧
    decodeInstr 0b00101000010000011000000000000000 = .value (.setLessThanImmediate 2 1 (-32768)) ∧
    encode (.setLessThanImmediate 2 1 (-32768)) = 0b00101000010000011000000000000000 := by decide

/-- VI26 and VI28 of spec/95_test_vectors.md; `001011ssssstttttiiiiiiiiiiiiiiii` (R208). -/
theorem test_decode_setLessThanImmediateUnsigned :
    decodeInstr 0b00101101111010110000010100111111 = .value (.setLessThanImmediateUnsigned 15 11 1343) ∧
    decodeInstr 0b00101100010000011000000000000000 = .value (.setLessThanImmediateUnsigned 2 1 (-32768)) ∧
    encode (.setLessThanImmediateUnsigned 2 1 (-32768)) = 0b00101100010000011000000000000000 := by decide

/-- VI31 and VI33 of spec/95_test_vectors.md; `001100ssssstttttiiiiiiiiiiiiiiii` (R209). -/
theorem test_decode_andImmediate :
    decodeInstr 0b00110010001100100000011100100000 = .value (.andImmediate 17 18 1824) ∧
    decodeInstr 0b00110000010000011000000000000000 = .value (.andImmediate 2 1 (-32768)) ∧
    encode (.andImmediate 2 1 (-32768)) = 0b00110000010000011000000000000000 := by decide

/-- VI36 and VI38 of spec/95_test_vectors.md; `001101ssssstttttiiiiiiiiiiiiiiii` (R210). -/
theorem test_decode_orImmediate :
    decodeInstr 0b00110110011110010000100101001011 = .value (.orImmediate 19 25 2379) ∧
    decodeInstr 0b00110100010000011000000000000000 = .value (.orImmediate 2 1 (-32768)) ∧
    encode (.orImmediate 2 1 (-32768)) = 0b00110100010000011000000000000000 := by decide

/-- VI41 and VI43 of spec/95_test_vectors.md; `001111ssssstttttiiiiiiiiiiiiiiii` (R211). -/
theorem test_decode_loadUpperImmediate :
    decodeInstr 0b00111110101000000000101111000000 = .value (.loadUpperImmediate 21 0 3008) ∧
    decodeInstr 0b00111100010000011000000000000000 = .value (.loadUpperImmediate 2 1 (-32768)) ∧
    encode (.loadUpperImmediate 2 1 (-32768)) = 0b00111100010000011000000000000000 := by decide

/-- VI46 and VI48 of spec/95_test_vectors.md; `100011ssssstttttiiiiiiiiiiiiiiii` (R222). -/
theorem test_decode_loadWord :
    decodeInstr 0b10001110111001110000111001111111 = .value (.loadWord 23 7 3711) ∧
    decodeInstr 0b10001100010000011000000000000000 = .value (.loadWord 2 1 (-32768)) ∧
    encode (.loadWord 2 1 (-32768)) = 0b10001100010000011000000000000000 := by decide

/-- VI51 and VI53 of spec/95_test_vectors.md; `100100ssssstttttiiiiiiiiiiiiiiii` (R223). -/
theorem test_decode_loadByteUnsigned :
    decodeInstr 0b10010011001011100001000110001000 = .value (.loadByteUnsigned 25 14 4488) ∧
    decodeInstr 0b10010000010000011000000000000000 = .value (.loadByteUnsigned 2 1 (-32768)) ∧
    encode (.loadByteUnsigned 2 1 (-32768)) = 0b10010000010000011000000000000000 := by decide

/-- VI56 and VI58 of spec/95_test_vectors.md; `100101ssssstttttiiiiiiiiiiiiiiii` (R224). -/
theorem test_decode_loadHalfwordUnsigned :
    decodeInstr 0b10010111011101010001010011011011 = .value (.loadHalfwordUnsigned 27 21 5339) ∧
    decodeInstr 0b10010100010000011000000000000000 = .value (.loadHalfwordUnsigned 2 1 (-32768)) ∧
    encode (.loadHalfwordUnsigned 2 1 (-32768)) = 0b10010100010000011000000000000000 := by decide

/-- VI61 and VI63 of spec/95_test_vectors.md; `101000ssssstttttiiiiiiiiiiiiiiii` (R225). -/
theorem test_decode_storeByte :
    decodeInstr 0b10100011101111000001100001111000 = .value (.storeByte 29 28 6264) ∧
    decodeInstr 0b10100000010000011000000000000000 = .value (.storeByte 2 1 (-32768)) ∧
    encode (.storeByte 2 1 (-32768)) = 0b10100000010000011000000000000000 := by decide

/-- VI66 and VI68 of spec/95_test_vectors.md; `101001ssssstttttiiiiiiiiiiiiiiii` (R226). -/
theorem test_decode_storeHalfword :
    decodeInstr 0b10100111111000110001110001011111 = .value (.storeHalfword 31 3 7263) ∧
    decodeInstr 0b10100100010000011000000000000000 = .value (.storeHalfword 2 1 (-32768)) ∧
    encode (.storeHalfword 2 1 (-32768)) = 0b10100100010000011000000000000000 := by decide

/-- VI71 and VI73 of spec/95_test_vectors.md; `101011ssssstttttiiiiiiiiiiiiiiii` (R227). -/
theorem test_decode_storeWord :
    decodeInstr 0b10101100001010100010000010010000 = .value (.storeWord 1 10 8336) ∧
    decodeInstr 0b10101100010000011000000000000000 = .value (.storeWord 2 1 (-32768)) ∧
    encode (.storeWord 2 1 (-32768)) = 0b10101100010000011000000000000000 := by decide

/-! ### Rejected words, by name (R241, R242) -/

/-- Function codes next to recognised ones: 0x01, 0x09, 0x28, 0x2C, 0x3F (R74, R242). -/
theorem test_decode_rejects_functions :
    decodeInstr 0b00000000000000000000000000000001 = .error .unknownFunction ∧
    decodeInstr 0b00000000000000000000000000001001 = .error .unknownFunction ∧
    decodeInstr 0b00000000000000000000000000101000 = .error .unknownFunction ∧
    decodeInstr 0b00000011111111111111111111101100 = .error .unknownFunction ∧
    decodeInstr 0b00000000000000000000000000111111 = .error .unknownFunction := by decide

/-- Opcodes next to recognised ones: 0x01, 0x06, 0x0E, 0x22, 0x2A, 0x3E (R73, R241). -/
theorem test_decode_rejects_opcodes :
    decodeInstr 0b00000100000000000000000000000000 = .error .unknownOpcode ∧
    decodeInstr 0b00011000000000000000000000000000 = .error .unknownOpcode ∧
    decodeInstr 0b00111000000000000000000000000000 = .error .unknownOpcode ∧
    decodeInstr 0b10001000000000000000000000000000 = .error .unknownOpcode ∧
    decodeInstr 0b10101000000000000000000000100000 = .error .unknownOpcode ∧
    decodeInstr 0b11111000000000000000000000000000 = .error .unknownOpcode := by decide

/-- A table word is the raw number; bits above its width are zero. -/
theorem test_decodeTableWord :
    decodeTableWord 32 0x20A50014 = some (.addImmediate 5 5 20) ∧
    decodeTableWord 32 0x0000003F = none ∧
    decodeTableWord 8 0x00851820 = some (.add 0 0 0 0) := by decide

/-! ### Ports and single steps -/

/-- VP1 to VP16: a word and the ten ports in the order of R34. -/
theorem test_ports_of_decode :
    ∀ e ∈ ([(0x20A50014, ⟨0, 0x3, 0x8, 0, 0x5, 0x5, 0, 0, 0x14, 0⟩),
      (0x00851820, ⟨0, 0x1, 0, 0x20, 0x4, 0x5, 0x3, 0, 0, 0⟩),
      (0x08000010, ⟨0, 0x2, 0x2, 0, 0, 0, 0, 0, 0, 0x10⟩),
      (0x2084FFFC, ⟨0, 0x3, 0x8, 0, 0x4, 0x4, 0, 0, 0xFFFC, 0⟩),
      (0x00052940, ⟨0, 0x1, 0, 0, 0, 0x5, 0x5, 0x5, 0, 0⟩),
      (0x03FFFFEB, ⟨0, 0x1, 0, 0x2B, 0x1F, 0x1F, 0x1F, 0x1F, 0, 0⟩),
      (0x0FFFFFFF, ⟨0, 0x2, 0x3, 0, 0, 0, 0, 0, 0, 0x3FFFFFF⟩),
      (0xAFFFFFFF, ⟨0, 0x3, 0x2B, 0, 0x1F, 0x1F, 0, 0, 0xFFFF, 0⟩),
      (0x3C0E8000, ⟨0, 0x3, 0xF, 0, 0, 0xE, 0, 0, 0x8000, 0⟩),
      (0x00000000, ⟨0, 0x1, 0, 0, 0, 0, 0, 0, 0, 0⟩),
      (0x0000003F, ⟨0x2, 0, 0, 0, 0, 0, 0, 0, 0, 0⟩),
      (0x03FFFFFF, ⟨0x2, 0, 0, 0, 0, 0, 0, 0, 0, 0⟩),
      (0xF8000000, ⟨0x1, 0, 0, 0, 0, 0, 0, 0, 0, 0⟩),
      (0xFFFFFFFF, ⟨0x1, 0, 0, 0, 0, 0, 0, 0, 0, 0⟩),
      (0x03E00008, ⟨0, 0x1, 0, 0x8, 0x1F, 0, 0, 0, 0, 0⟩),
      (0x14E0FFFB, ⟨0, 0x3, 0x5, 0, 0x7, 0, 0, 0, 0xFFFB, 0⟩)] : List (Word × Ports)),
      Ports.ofResult (decode e.1) = e.2 := by decide

/-- A small state: the caller is about to present the words, the port holds the all-zero word, no result has been returned. -/
def presenting (ws : List Word) : State := { State.reset with pending := ws }

/-- A small state with nothing pending: the port holds the word. -/
def holding (w : Word) : State := { State.reset with word := w }

/-- S1: the caller presents 0x20A50014; the ports are VP1's. -/
theorem test_step_addImmediate :
    step (presenting [0x20A50014, 0x00000000]) = .next
      { word := 0x20A50014, pending := [0x00000000], out := ⟨0, 3, 0x08, 0, 5, 5, 0, 0, 0x0014, 0⟩,
        returned := [.value (.immediate .addImmediate 5 5 20)] } := rfl

/-- VP6: all four fields of a register operation are on the ports. -/
theorem test_step_setLessThanUnsigned :
    step (presenting [0x03FFFFEB]) = .next
      { word := 0x03FFFFEB, pending := [], out := ⟨0, 1, 0x00, 0x2B, 31, 31, 31, 31, 0, 0⟩,
        returned := [.value (.register .setLessThanUnsigned 31 31 31 31)] } := rfl

/-- VP7: the raw 26-bit payload, and no register field. -/
theorem test_step_jumpAndLink :
    step (presenting [0x0FFFFFFF]) = .next
      { word := 0x0FFFFFFF, pending := [], out := ⟨0, 2, 0x03, 0, 0, 0, 0, 0, 0, 0x03FFFFFF⟩,
        returned := [.value (.jump .jumpAndLink 0x03FFFFFF)] } := rfl

/-- VP8: a store delivers its fields and stores nothing. -/
theorem test_step_storeWord :
    step (presenting [0xAFFFFFFF]) = .next
      { word := 0xAFFFFFFF, pending := [], out := ⟨0, 3, 0x2B, 0, 31, 31, 0, 0, 0xFFFF, 0⟩,
        returned := [.value (.immediate .storeWord 31 31 (-1))] } := rfl

/-- VP11: an error is an answer, not a stop, and every instruction output is 0. -/
theorem test_step_unknownFunction :
    step (presenting [0x0000003F, 0x20A50014]) = .next
      { word := 0x0000003F, pending := [0x20A50014], out := ⟨2, 0, 0, 0, 0, 0, 0, 0, 0, 0⟩,
        returned := [.error .unknownFunction] } := rfl

/-- VP14. -/
theorem test_step_unknownOpcode :
    step (presenting [0xFFFFFFFF]) = .next
      { word := 0xFFFFFFFF, pending := [], out := ⟨1, 0, 0, 0, 0, 0, 0, 0, 0, 0⟩,
        returned := [.error .unknownOpcode] } := rfl

/-- VP10: from reset with nothing presented, the step evaluates the word the port holds (notes/assumptions/2.md, 3.md). -/
theorem test_step_from_reset :
    step State.reset = .next
      { word := 0x00000000, pending := [], out := ⟨0, 1, 0, 0, 0, 0, 0, 0, 0, 0⟩,
        returned := [.value (.register .shiftLeftLogical 0 0 0 0)] } := rfl

/-- A word placed with `withFetchWord` is the very next word evaluated; VP15's word. -/
theorem test_withFetchWord :
    step (State.reset.withFetchWord 32 0x03E00008) = .next
      { word := 0x03E00008, pending := [], out := ⟨0, 1, 0, 0x08, 31, 0, 0, 0, 0, 0⟩,
        returned := [.value (.register .jumpRegister 31 0 0 0)] } := rfl

/-! ### Witnesses: what meets the hypotheses of each statement, clause by clause, at the ends of the ranges -/

/-- The four patterns of the four clauses. -/
theorem witness_ImmediateReadsSigned16 :
    immediateBits 0xFFFF0000 = 0x0000 ∧ immediateBits 0x00007FFF = 0x7FFF ∧ immediateBits 0x00008000 = 0x8000 ∧
    immediateBits 0x0000FFFF = 0xFFFF := by decide

/-- Both signs, at the ends of the range. -/
theorem witness_ImmediateSignLaw :
    decode 0x8C418000 = .value (.immediate .loadWord 2 1 (-32768)) ∧
    decode 0x8C227FFF = .value (.immediate .loadWord 1 2 32767) ∧
    (0x8C227FFF : Word).getLsbD 15 = false ∧ (0x8C418000 : Word).getLsbD 15 = true := by decide

theorem witness_TargetAddressZeroExtends :
    decode 0x08000000 = .value (.jump .jump 0) ∧ decode 0x0FFFFFFF = .value (.jump .jumpAndLink 0x03FFFFFF) := by decide

/-- The first and last unrecognised opcode; words with the first and last recognised ones. -/
theorem witness_OpcodeClassificationTable :
    (0x01 : Code) ∉ ([0x00, 0x02, 0x03] ++ immediateOpcodes : List Code) ∧
    (0x3F : Code) ∉ ([0x00, 0x02, 0x03] ++ immediateOpcodes : List Code) ∧
    opcode 0x0000003F ∈ ([0x00, 0x02, 0x03] ++ immediateOpcodes : List Code) ∧
    opcode 0xAFFFFFFF ∈ ([0x00, 0x02, 0x03] ++ immediateOpcodes : List Code) ∧
    opcode 0x08000000 ∈ ([0x02, 0x03] ++ immediateOpcodes : List Code) ∧
    opcode 0xAFFFFFFF ∈ ([0x02, 0x03] ++ immediateOpcodes : List Code) := by decide

/-- The first and last unrecognised function code; a word that fails. -/
theorem witness_FunctionClassificationTable :
    (0x01 : Code) ∉ recognisedFunctions ∧ (0x3F : Code) ∉ recognisedFunctions ∧
    decode 0x03FFFFFF = .error .unknownFunction := by decide

theorem witness_EachCodeHasExactlyOneTag :
    classifyOpcode 0x00 = .value .trigger ∧ classifyOpcode 0x2B = .value (.immClass .storeWord) ∧
    classifyOpcode 0x03 = .value (.jumpClass .jumpAndLink) ∧
    classifyFunction 0x00 = .value .shiftLeftLogical ∧ classifyFunction 0x2B = .value .setLessThanUnsigned ∧
    classifyOpcode 0x3F = .error .unknownOpcode ∧ classifyFunction 0x3F = .error .unknownFunction := by decide

/-- The cases in two other orders than the builder's: rotated, and reversed. -/
theorem witness_DecodeIsTheClassifiedDispatch :
    (dispatchCases.tail ++ dispatchCases.take 1).Perm dispatchCases ∧ dispatchCases.reverse.Perm dispatchCases :=
  ⟨List.perm_append_comm, List.reverse_perm _⟩

theorem witness_RegisterPathDecodes :
    opcode 0x00000000 = 0x00 ∧ classifyFunction (functionCode 0x00000000) = .value .shiftLeftLogical ∧
    opcode 0x03FFFFEB = 0x00 ∧ classifyFunction (functionCode 0x03FFFFEB) = .value .setLessThanUnsigned ∧
    opcode 0x03FFFFFF = 0x00 ∧ functionCode 0x03FFFFFF ∈ unrecognisedFunctions := by decide

theorem witness_JumpPathDecodes :
    opcode 0x08000000 = 0x02 ∧ opcode 0x0BFFFFFF = 0x02 ∧ opcode 0x0C000000 = 0x03 ∧ opcode 0x0FFFFFFF = 0x03 := by decide

theorem witness_ImmediatePathDecodes :
    (opcode 0x10000000 ≠ 0x00 ∧ opcode 0x10000000 ≠ 0x02 ∧ opcode 0x10000000 ≠ 0x03 ∧
      classifyOpcode (opcode 0x10000000) = .value (.immClass .branchEqual)) ∧
    (opcode 0xAFFFFFFF ≠ 0x00 ∧ opcode 0xAFFFFFFF ≠ 0x02 ∧ opcode 0xAFFFFFFF ≠ 0x03 ∧
      classifyOpcode (opcode 0xAFFFFFFF) = .value (.immClass .storeWord)) ∧
    (opcode 0xFFFFFFFF ≠ 0x00 ∧ opcode 0xFFFFFFFF ≠ 0x02 ∧ opcode 0xFFFFFFFF ≠ 0x03 ∧
      opcode 0xFFFFFFFF ∈ unrecognisedOpcodes) := by decide

/-- Two words that differ outside the codes: with opcode 0 and equal function codes, and with another opcode. -/
theorem witness_OutcomeClassIsDecidedByTheCodes :
    (opcode 0x00000020 = opcode 0x03FFFFE0 ∧ opcode 0x00000020 = 0x00 ∧ functionCode 0x00000020 = functionCode 0x03FFFFE0) ∧
    (opcode 0x8C000000 = opcode 0x8FFFFFFF ∧ opcode 0x8C000000 ≠ 0x00) := by decide

/-- The first and the last word of each pattern meet the hypotheses of their clause. -/
theorem witness_RegisterRulesShiftToDivide :
    opcode 0x00000000 = 0x00 ∧ functionCode 0x00000000 = 0x00 ∧ opcode 0x03FFFFC0 = 0x00 ∧ functionCode 0x03FFFFC0 = 0x00 ∧
    opcode 0x00000002 = 0x00 ∧ functionCode 0x00000002 = 0x02 ∧ opcode 0x03FFFFC2 = 0x00 ∧ functionCode 0x03FFFFC2 = 0x02 ∧
    opcode 0x00000003 = 0x00 ∧ functionCode 0x00000003 = 0x03 ∧ opcode 0x03FFFFC3 = 0x00 ∧ functionCode 0x03FFFFC3 = 0x03 ∧
    opcode 0x00000008 = 0x00 ∧ functionCode 0x00000008 = 0x08 ∧ opcode 0x03FFFFC8 = 0x00 ∧ functionCode 0x03FFFFC8 = 0x08 ∧
    opcode 0x00000010 = 0x00 ∧ functionCode 0x00000010 = 0x10 ∧ opcode 0x03FFFFD0 = 0x00 ∧ functionCode 0x03FFFFD0 = 0x10 ∧
    opcode 0x00000012 = 0x00 ∧ functionCode 0x00000012 = 0x12 ∧ opcode 0x03FFFFD2 = 0x00 ∧ functionCode 0x03FFFFD2 = 0x12 ∧
    opcode 0x00000018 = 0x00 ∧ functionCode 0x00000018 = 0x18 ∧ opcode 0x03FFFFD8 = 0x00 ∧ functionCode 0x03FFFFD8 = 0x18 ∧
    opcode 0x00000019 = 0x00 ∧ functionCode 0x00000019 = 0x19 ∧ opcode 0x03FFFFD9 = 0x00 ∧ functionCode 0x03FFFFD9 = 0x19 ∧
    opcode 0x0000001A = 0x00 ∧ functionCode 0x0000001A = 0x1A ∧ opcode 0x03FFFFDA = 0x00 ∧ functionCode 0x03FFFFDA = 0x1A ∧
    opcode 0x0000001B = 0x00 ∧ functionCode 0x0000001B = 0x1B ∧ opcode 0x03FFFFDB = 0x00 ∧ functionCode 0x03FFFFDB = 0x1B := by
  and_intros <;> decide

/-- The first and the last word of each pattern meet the hypotheses of their clause. -/
theorem witness_RegisterRulesAddToSetLess :
    opcode 0x00000020 = 0x00 ∧ functionCode 0x00000020 = 0x20 ∧ opcode 0x03FFFFE0 = 0x00 ∧ functionCode 0x03FFFFE0 = 0x20 ∧
    opcode 0x00000021 = 0x00 ∧ functionCode 0x00000021 = 0x21 ∧ opcode 0x03FFFFE1 = 0x00 ∧ functionCode 0x03FFFFE1 = 0x21 ∧
    opcode 0x00000022 = 0x00 ∧ functionCode 0x00000022 = 0x22 ∧ opcode 0x03FFFFE2 = 0x00 ∧ functionCode 0x03FFFFE2 = 0x22 ∧
    opcode 0x00000023 = 0x00 ∧ functionCode 0x00000023 = 0x23 ∧ opcode 0x03FFFFE3 = 0x00 ∧ functionCode 0x03FFFFE3 = 0x23 ∧
    opcode 0x00000024 = 0x00 ∧ functionCode 0x00000024 = 0x24 ∧ opcode 0x03FFFFE4 = 0x00 ∧ functionCode 0x03FFFFE4 = 0x24 ∧
    opcode 0x00000025 = 0x00 ∧ functionCode 0x00000025 = 0x25 ∧ opcode 0x03FFFFE5 = 0x00 ∧ functionCode 0x03FFFFE5 = 0x25 ∧
    opcode 0x00000026 = 0x00 ∧ functionCode 0x00000026 = 0x26 ∧ opcode 0x03FFFFE6 = 0x00 ∧ functionCode 0x03FFFFE6 = 0x26 ∧
    opcode 0x00000027 = 0x00 ∧ functionCode 0x00000027 = 0x27 ∧ opcode 0x03FFFFE7 = 0x00 ∧ functionCode 0x03FFFFE7 = 0x27 ∧
    opcode 0x0000002A = 0x00 ∧ functionCode 0x0000002A = 0x2A ∧ opcode 0x03FFFFEA = 0x00 ∧ functionCode 0x03FFFFEA = 0x2A ∧
    opcode 0x0000002B = 0x00 ∧ functionCode 0x0000002B = 0x2B ∧ opcode 0x03FFFFEB = 0x00 ∧ functionCode 0x03FFFFEB = 0x2B := by
  and_intros <;> decide

/-- The first and the last word of each pattern meet the hypotheses of their clause. -/
theorem witness_JumpRules :
    opcode 0x08000000 = 0x02 ∧ opcode 0x0BFFFFFF = 0x02 ∧ opcode 0x0C000000 = 0x03 ∧ opcode 0x0FFFFFFF = 0x03 := by
  and_intros <;> decide

/-- The first and the last word of each pattern meet the hypotheses of their clause. -/
theorem witness_ImmediateRules :
    opcode 0x10000000 = 0x04 ∧ opcode 0x13FFFFFF = 0x04 ∧ opcode 0x14000000 = 0x05 ∧ opcode 0x17FFFFFF = 0x05 ∧
    opcode 0x20000000 = 0x08 ∧ opcode 0x23FFFFFF = 0x08 ∧ opcode 0x24000000 = 0x09 ∧ opcode 0x27FFFFFF = 0x09 ∧
    opcode 0x28000000 = 0x0A ∧ opcode 0x2BFFFFFF = 0x0A ∧ opcode 0x2C000000 = 0x0B ∧ opcode 0x2FFFFFFF = 0x0B ∧
    opcode 0x30000000 = 0x0C ∧ opcode 0x33FFFFFF = 0x0C ∧ opcode 0x34000000 = 0x0D ∧ opcode 0x37FFFFFF = 0x0D ∧
    opcode 0x3C000000 = 0x0F ∧ opcode 0x3FFFFFFF = 0x0F := by
  and_intros <;> decide

/-- The first and the last word of each pattern meet the hypotheses of their clause. -/
theorem witness_LoadStoreRules :
    opcode 0x8C000000 = 0x23 ∧ opcode 0x8FFFFFFF = 0x23 ∧ opcode 0x90000000 = 0x24 ∧ opcode 0x93FFFFFF = 0x24 ∧
    opcode 0x94000000 = 0x25 ∧ opcode 0x97FFFFFF = 0x25 ∧ opcode 0xA0000000 = 0x28 ∧ opcode 0xA3FFFFFF = 0x28 ∧
    opcode 0xA4000000 = 0x29 ∧ opcode 0xA7FFFFFF = 0x29 ∧ opcode 0xAC000000 = 0x2B ∧ opcode 0xAFFFFFFF = 0x2B := by
  and_intros <;> decide

theorem witness_RegisterFamilyDecodesAndDrivesPorts :
    (opcode 0x03FFFFFF = 0x00 ∧ functionCode 0x03FFFFFF ∉ recognisedFunctions) ∧
    opcode 0x03FFFFEB = 0x00 ∧ functionCode 0x03FFFFEB ∈ recognisedFunctions ∧
    opcode 0x00000000 = 0x00 ∧ functionCode 0x00000000 ∈ recognisedFunctions := by decide

theorem witness_JumpFamilyDecodesAndDrivesPorts :
    (opcode 0x08000000 = 0x02 ∨ opcode 0x08000000 = 0x03) ∧
    (opcode 0x0FFFFFFF = 0x02 ∨ opcode 0x0FFFFFFF = 0x03) := by decide

theorem witness_ImmediateFamilyDecodesAndDrivesPorts :
    opcode 0xFFFFFFFF ∉ ([0x00, 0x02, 0x03] ++ immediateOpcodes : List Code) ∧
    opcode 0x10000000 ∈ immediateOpcodes ∧
    opcode 0xAFFFFFFF ∈ immediateOpcodes := by decide

/-- One word of each of the three families, at an end of its range. -/
theorem witness_FamilyLawsOfFidelityAndRebuild :
    decode 0x03FFFFEB = .value (.register .setLessThanUnsigned 31 31 31 31) ∧
    decode 0x0FFFFFFF = .value (.jump .jumpAndLink 0x03FFFFFF) ∧
    decode 0x10418000 = .value (.immediate .branchEqual 2 1 (-32768)) := by decide

/-- Two words with one failing opcode, and words with the first and the last failing opcode, which the clauses' two forms admit. -/
theorem witness_UnknownOpcodeExactly :
    decode 0xFC000000 = .error .unknownOpcode ∧ opcode 0xFFFFFFFF = opcode 0xFC000000 ∧
    opcode 0x04000000 ∉ ([0x00, 0x02, 0x03] ++ immediateOpcodes : List Code) ∧
    opcode 0xFFFFFFFF ∉ ([0x00, 0x02, 0x03] ++ immediateOpcodes : List Code) := by decide

/-- Two words with one failing function code, and words with the first and the last failing function code, which the clauses' two
forms admit. -/
theorem witness_UnknownFunctionExactly :
    decode 0x0000003F = .error .unknownFunction ∧ opcode 0x03FFFFFF = 0x00 ∧
    functionCode 0x03FFFFFF = functionCode 0x0000003F ∧
    opcode 0x00000001 = 0x00 ∧ functionCode 0x00000001 ∉ recognisedFunctions ∧
    functionCode 0x03FFFFFF ∉ recognisedFunctions := by decide

/-- Each error, with another word after it; and each error of a held word, with nothing pending. -/
theorem witness_ErrorIsAnsweredAndNeverSoftened :
    decode ((presenting [0x0000003F, 0x20A50014]).pending.headD 0) = .error .unknownFunction ∧
    decode ((presenting [0xF8000000, 0x20A50014]).pending.headD 0) = .error .unknownOpcode ∧
    (presenting [0xF8000000, 0x20A50014]).pending.tail = 0x20A50014 :: [] ∧
    (holding 0x03FFFFFF).pending = [] ∧
    decode ((holding 0x03FFFFFF).pending.headD (holding 0x03FFFFFF).word) = .error .unknownFunction ∧
    (holding 0xFFFFFFFF).pending = [] ∧
    decode ((holding 0xFFFFFFFF).pending.headD (holding 0xFFFFFFFF).word) = .error .unknownOpcode := by decide

theorem witness_ErrorsDoNotStick :
    (presenting [0xF8000000, 0x20A50014, 0xF8000000]).pending = 0xF8000000 :: 0x20A50014 :: 0xF8000000 :: [] ∧
    decode 0xF8000000 = .error .unknownOpcode ∧ decode 0x0000003F = .error .unknownFunction ∧
    decode 0x20A50014 = .value (.immediate .addImmediate 5 5 20) := by decide

theorem witness_LegalFormWithAgreeingTag :
    decode 0x00000000 = .value (.register .shiftLeftLogical 0 0 0 0) ∧
    decode 0x0BFFFFFF = .value (.jump .jump 0x03FFFFFF) ∧
    decode 0xAFFFFFFF = .value (.immediate .storeWord 31 31 (-1)) := by decide

theorem witness_DecodeEncodeRoundTrip :
    Instr.wellFormed (.add 31 0 31 0) = true ∧ Instr.wellFormed (.jump 0x03FFFFFF) = true ∧
    Instr.wellFormed (.loadWord 31 0 32767) = true ∧ Instr.wellFormed (.storeWord 0 31 (-32768)) = true := by decide

theorem witness_EncodeDecodeRoundTrip :
    decodeInstr 0x03FFFFEB = .value (.setLessThanUnsigned 31 31 31 31) ∧
    decodeInstr 0x0BFFFFFF = .value (.jump 0x03FFFFFF) ∧ decodeInstr 0xAFFFFFFF = .value (.storeWord 31 31 (-1)) ∧
    decode 0xAFFFFFFF = .value (.immediate .storeWord 31 31 (-1)) := by decide

theorem witness_EveryLegalValueHasExactlyOneWord :
    Instruction.legal (.register .divide 31 0 31 0) = true ∧ Instruction.legal (.jump .jump 0x03FFFFFF) = true ∧
    Instruction.legal (.immediate .storeByte 0 31 (-32768)) = true ∧
    Instruction.legal (.immediate .storeByte 0 31 32767) = true := by decide

theorem witness_EncodingFormulas :
    targetInRange 0x00000000 = true ∧ targetInRange 0x03FFFFFF = true ∧ immInRange (-32768) = true ∧
    immInRange 32767 = true := by decide

/-- A word under its own row, and a word under no row. -/
theorem witness_MatchAndMaskSelectTheRow :
    (0x03FFFFEB : Word) &&& (Operation.funct .setLessThanUnsigned).mask =
      (Operation.funct .setLessThanUnsigned).matchBits ∧
    (0xAFFFFFFF : Word) &&& (Operation.imm .storeWord).mask = (Operation.imm .storeWord).matchBits ∧
    decode 0xFFFFFFFF = .error .unknownOpcode ∧
    ∀ o ∈ Operation.all, (0xFFFFFFFF : Word) &&& o.mask ≠ o.matchBits := by decide

theorem witness_PortsReadBackTheResult :
    DecodeResult.legal (.value (.jump .jumpAndLink 0x03FFFFFF)) = true ∧
    DecodeResult.legal (.value (.immediate .branchEqual 0 31 (-32768))) = true ∧
    DecodeResult.legal (.error .unknownFunction) = true := by decide

/-- The load and the store of the spec's examples (R222, R227): the same bits 25 to 0. -/
theorem witness_LoadsAndStoresDifferInTheTagOnly :
    (0x8FA80004 : Word).extractLsb' 0 26 = (0xAFA80004 : Word).extractLsb' 0 26 ∧
    decode 0x8FA80004 = .value (.immediate .loadWord 29 8 4) ∧ opcode 0xAFA80004 = ImmTag.storeWord.code := by decide

/-- A pending word, a held word, a placed word. -/
theorem witness_StepRunsTheDecodedInstruction :
    ((presenting [0x8FA80004]).pending = 0x8FA80004 :: [] ∧ decodeInstr 0x8FA80004 = .value (.loadWord 29 8 4)) ∧
    ((presenting []).pending = [] ∧ decodeInstr (presenting []).word = .value (.shiftLeftLogical 0 0 0 0)) ∧
    decodeInstr 0xAFFFFFFF = .value (.storeWord 31 31 (-1)) := by decide

/-- A safe state that is not the reset state: the word of S1 has been evaluated and another is pending. -/
def afterS1 : State :=
  { word := 0x20A50014, pending := [0x0000003F], out := ⟨0, 3, 0x08, 0, 5, 5, 0, 0, 0x0014, 0⟩,
    returned := [.error .unknownOpcode, .value (.immediate .addImmediate 5 5 20)] }

/-- The state after it. -/
def afterS1Next : State :=
  { word := 0x0000003F, pending := [], out := ⟨2, 0, 0, 0, 0, 0, 0, 0, 0, 0⟩,
    returned := [.error .unknownOpcode, .value (.immediate .addImmediate 5 5 20), .error .unknownFunction] }

theorem witness_StepKeepsSafe : afterS1.safe ∧ step afterS1 = .next afterS1Next := by
  refine ⟨⟨by unfold State.settled; decide, by unfold Ports.drivable; decide, ?_, by unfold State.resultsLegal; decide⟩, rfl⟩
  intro r h
  have h' : OrError.value (.immediate .addImmediate 5 5 20) = r := Option.some.inj h
  rw [← h']
  decide

/-- Two states that differ in the ports and the results and evaluate one word: pending in one, held in the other. -/
theorem witness_NothingIsCarriedBetweenEvaluations :
    afterS1.pending.headD afterS1.word = (holding 0x0000003F).pending.headD (holding 0x0000003F).word ∧
    step afterS1 = .next afterS1Next ∧
    step (holding 0x0000003F) = .next
      { word := 0x0000003F, pending := [], out := ⟨2, 0, 0, 0, 0, 0, 0, 0, 0, 0⟩, returned := [.error .unknownFunction] } ∧
    afterS1.out ≠ (holding 0x0000003F).out :=
  ⟨by decide, rfl, rfl, by decide⟩

/-- Two copies, the second about to evaluate the word of S2, and one copy about to evaluate the same word. -/
theorem witness_NothingIsCarriedBetweenEvaluations_copies :
    (∃ c' : Copies 2, Copies.stepAt 1 #v[afterS1, presenting [0x00851820]] = .next c') ∧
    (∃ d' : Copies 1, Copies.stepAt 0 #v[presenting [0x00851820, 0x0000003F]] = .next d') ∧
    (#v[afterS1, presenting [0x00851820]].get 1).pending.headD 0 =
      (#v[presenting [0x00851820, 0x0000003F]].get 0).pending.headD 0 :=
  ⟨⟨_, rfl⟩, ⟨_, rfl⟩, rfl⟩

/-- A stream that leaves words pending, and the empty stream. -/
theorem witness_StreamReturnsEachWordsDecode :
    (presenting [0x20A50014, 0x0000003F, 0xFFFFFFFF]).pending = [0x20A50014, 0x0000003F] ++ [0xFFFFFFFF] ∧
    ([0x20A50014, 0x0000003F] : List Word) ≠ [] ∧ (presenting []).pending = [] ++ [] := by decide

/-- A word for each code that the two clauses name. -/
theorem witness_ConventionalSystemEncodingsAreErrors :
    (opcode 0x0000000C = 0x00 ∧ functionCode 0x0000000C ∈ ([0x0C, 0x0D, 0x0F, 0x11, 0x13, 0x09] : List Code)) ∧
    (opcode 0x0000000D = 0x00 ∧ functionCode 0x0000000D ∈ ([0x0C, 0x0D, 0x0F, 0x11, 0x13, 0x09] : List Code)) ∧
    (opcode 0x0000000F = 0x00 ∧ functionCode 0x0000000F ∈ ([0x0C, 0x0D, 0x0F, 0x11, 0x13, 0x09] : List Code)) ∧
    (opcode 0x00000011 = 0x00 ∧ functionCode 0x00000011 ∈ ([0x0C, 0x0D, 0x0F, 0x11, 0x13, 0x09] : List Code)) ∧
    (opcode 0x00000013 = 0x00 ∧ functionCode 0x00000013 ∈ ([0x0C, 0x0D, 0x0F, 0x11, 0x13, 0x09] : List Code)) ∧
    (opcode 0x03FFFFC9 = 0x00 ∧ functionCode 0x03FFFFC9 ∈ ([0x0C, 0x0D, 0x0F, 0x11, 0x13, 0x09] : List Code)) ∧
    opcode 0x40000000 ∈ ([0x10, 0x11, 0x12, 0x13, 0x01, 0x30, 0x38, 0x2F] : List Code) ∧
    opcode 0x44000000 ∈ ([0x10, 0x11, 0x12, 0x13, 0x01, 0x30, 0x38, 0x2F] : List Code) ∧
    opcode 0x48000000 ∈ ([0x10, 0x11, 0x12, 0x13, 0x01, 0x30, 0x38, 0x2F] : List Code) ∧
    opcode 0x4FFFFFFF ∈ ([0x10, 0x11, 0x12, 0x13, 0x01, 0x30, 0x38, 0x2F] : List Code) ∧
    opcode 0x04000000 ∈ ([0x10, 0x11, 0x12, 0x13, 0x01, 0x30, 0x38, 0x2F] : List Code) ∧
    opcode 0xC0000000 ∈ ([0x10, 0x11, 0x12, 0x13, 0x01, 0x30, 0x38, 0x2F] : List Code) ∧
    opcode 0xE0000000 ∈ ([0x10, 0x11, 0x12, 0x13, 0x01, 0x30, 0x38, 0x2F] : List Code) ∧
    opcode 0xBFFFFFFF ∈ ([0x10, 0x11, 0x12, 0x13, 0x01, 0x30, 0x38, 0x2F] : List Code) := by
  and_intros <;> decide

/-- Both ends of the range, decoded. -/
theorem witness_WideningKeepsTheImmediate :
    decode 0x10418000 = .value (.immediate .branchEqual 2 1 (-32768)) ∧
    decode 0xAC227FFF = .value (.immediate .storeWord 1 2 32767) := by decide

/-- Two words for each error, at the ends of the failing codes. -/
theorem witness_ErrorsDriveOnlyTheirStatus :
    decode 0x04000000 = .error .unknownOpcode ∧ decode 0xFFFFFFFF = .error .unknownOpcode ∧
    decode 0x00000001 = .error .unknownFunction ∧ decode 0x03FFFFFF = .error .unknownFunction := by decide

end Sys2Proof.Tests
end

section
/-! The Field Extractor (spec/40_field_extractor.md): what the immediate (R97, R103) and the jump payload (R98, R104) are as numbers
and bit by bit, and the four statements about the extractors. -/

namespace Sys2Proof

/-! ### The unsigned extractions (R90, R98) -/

/-- Nothing lies above the opcode, so its slice is the whole quotient (R90). -/
theorem opcode_toNat_eq_div (w : Word) : (opcode w).toNat = w.toNat / 2 ^ 26 := by
  have hw : w.toNat < 2 ^ 32 := w.isLt
  have hop := opcode_toNat w
  omega

/-- The payload is the word under its mask (R98). -/
theorem targetAddress_eq_and (w : Word) : targetAddress w = w &&& (0x03FFFFFF : Word) := by
  apply BitVec.eq_of_toNat_eq
  rw [targetAddress_toNat, BitVec.toNat_and]
  exact (Nat.and_two_pow_sub_one_eq_mod w.toNat 26).symm

/-! ### The signed immediate (R97, R103) -/

/-- The two branches of R97. -/
theorem immediate_eq_ite (w : Word) :
    immediate w =
      if w.getLsbD 15 then ((w.toNat % 65536 : Nat) : Int) - 65536 else ((w.toNat % 65536 : Nat) : Int) := by
  rw [immediate, BitVec.toInt_eq_msb_cond, immediateBits_msb, immediateBits_toNat]
  rfl

/-- The immediate depends on the word through its low 16 bits alone. -/
theorem immediate_of_pattern {w : Word} {p : BitVec 16} (h : immediateBits w = p) : immediate w = p.toInt := by
  rw [immediate, h]

/-- Bit 15 is the sign (R103). -/
theorem immediate_neg_iff (w : Word) : immediate w < 0 ↔ w.getLsbD 15 = true := by
  rw [← immediateBits_msb, BitVec.msb_eq_toInt, decide_eq_true_iff, immediate]

theorem immediate_of_sign_clear {w : Word} (h : w.getLsbD 15 = false) :
    immediate w = ((w.toNat % 65536 : Nat) : Int) := by
  rw [immediate_eq_ite, h, if_neg Bool.false_ne_true]

/-- The pattern in the word is recoverable from the immediate (R103). -/
theorem immediate_emod_eq_word (w : Word) : immediate w % 65536 = ((w.toNat % 65536 : Nat) : Int) := by
  rw [immediate_mod, immediateBits_toNat]
  rfl

/-- The range of R29. -/
theorem immediate_range (w : Word) : -32768 ≤ immediate w ∧ immediate w ≤ 32767 :=
  ⟨BitVec.le_toInt (immediateBits w), Int.le_of_lt_add_one (BitVec.toInt_lt (x := immediateBits w))⟩

/-! ### The jump payload bit by bit (R104) -/

theorem targetAddress_le (w : Word) : (targetAddress w).toNat ≤ 0x03FFFFFF := by
  have htarget := targetAddress_toNat w
  omega

theorem targetAddress_high_bits (w : Word) : (targetAddress w).extractLsb' 26 6 = 0 := by
  apply BitVec.eq_of_toNat_eq
  have hle := targetAddress_le w
  rw [BitVec.extractLsb'_toNat, Nat.shiftRight_eq_div_pow, Nat.div_eq_of_lt (by omega)]
  rfl

theorem targetAddress_low_bits (w : Word) : (targetAddress w).extractLsb' 0 26 = w.extractLsb' 0 26 := by
  apply BitVec.eq_of_toNat_eq
  rw [BitVec.extractLsb'_toNat, BitVec.extractLsb'_toNat, Nat.shiftRight_zero, Nat.shiftRight_zero, targetAddress_toNat,
    Nat.mod_mod]

/-! ### The statements -/

/-- Settles O3: a decoded Immediate form carries `immediate w`, and each clause is a law of `immediate`. -/
theorem immediateSignLaw : Obligations.ImmediateSignLaw := by
  intro w t rs rt imm h
  obtain ⟨-, -, -, rfl⟩ := decode_eq_immediate.1 h
  exact ⟨immediate_neg_iff w, immediate_of_sign_clear, immediate_emod_eq_word w, immediate_range w⟩

/-- Settles O1: each clause over all words is the extractor's value as a number; the corner cases and worked examples are evaluated. -/
theorem extractorsReadFixedBits : Obligations.ExtractorsReadFixedBits := by
  constructor
  · intro w
    exact ⟨opcode_toNat_eq_div w, sourceRegister_toNat w, targetRegister_toNat w, destinationRegister_toNat w,
      shiftAmount_toNat w, functionCode_toNat w, immediateBits_toNat w, targetAddress_toNat w, targetAddress_eq_and w⟩
  · decide

/-- Settles O2: the two branches for every word; the four patterns and the examples are the values of those 16 bits. -/
theorem immediateReadsSigned16 : Obligations.ImmediateReadsSigned16 := by
  have hexamples : immediate 0x20A50014 = 20 ∧ immediate 0xFFFFFFFF = -1 ∧ immediate 0x2084FFFC = -4 := by decide
  exact ⟨immediate_eq_ite, fun _ h => immediate_of_pattern h, fun _ h => immediate_of_pattern h,
    fun _ h => immediate_of_pattern h, fun _ h => immediate_of_pattern h, hexamples⟩

/-- Settles O4: the bounds and bits of the payload for every word, and the inversion of a decoded Jump form. -/
theorem targetAddressZeroExtends : Obligations.TargetAddressZeroExtends := by
  constructor
  · intro w
    exact ⟨targetAddress_le w, targetAddress_high_bits w, targetAddress_low_bits w⟩
  · intro w j target h
    exact (decode_eq_jump.1 h).2.symm

end Sys2Proof
end

section
/-! The Opcode Classifier (spec/41_opcode_classifier.md): which codes fail (R114, R116), when `decode` answers each error (R119), and
the two statements about the tables. -/

namespace Sys2Proof

open Sys2Proof.Stated

/-! ### The codes without an entry (R114, R116) -/

/-- The 18 recognised opcodes: the trigger, the jumps and the keys of `IMM_TABLE` (R111 to R113). -/
abbrev recognisedOpcodes : List Code := [0x00, 0x02, 0x03] ++ immediateOpcodes

theorem not_mem_recognisedOpcodes_iff {op : Code} :
    op ∉ recognisedOpcodes ↔ (op ≠ 0x00 ∧ op ≠ 0x02 ∧ op ≠ 0x03) ∧ op ∉ immediateOpcodes := by
  simp only [List.mem_append, List.mem_cons, List.not_mem_nil, or_false, not_or, ne_eq]

/-- A lookup finds nothing exactly where the code is no key of the table. -/
theorem lookup_eq_none_iff_not_mem_keys {α : Type} {table : List (Code × α)} {c : Code} :
    table.lookup c = none ↔ c ∉ table.map Prod.fst := by
  rw [List.lookup_eq_none_iff, List.mem_map]
  constructor
  · rintro h ⟨p, hp, rfl⟩
    exact bne_iff_ne.1 (h p hp) rfl
  · intro h p hp
    exact bne_iff_ne.2 fun hc => h ⟨p, hp, hc.symm⟩

theorem lookupImmediate_eq_error_iff {op : Code} :
    lookupImmediate op = .error .unknownOpcode ↔ op ∉ immediateOpcodes := by
  have hkeys : immediateOpcodes = immTable.map Prod.fst := rfl
  rw [hkeys, ← lookup_eq_none_iff_not_mem_keys, lookupImmediate]
  cases immTable.lookup op <;> simp

theorem classifyFunction_eq_error_iff {fc : Code} :
    classifyFunction fc = .error .unknownFunction ↔ fc ∉ recognisedFunctions := by
  have hkeys : recognisedFunctions = functTable.map Prod.fst := rfl
  rw [hkeys, ← lookup_eq_none_iff_not_mem_keys, classifyFunction]
  cases functTable.lookup fc <;> simp

/-- The list of R73 is the complement of the recognised opcodes among the 64 values. -/
theorem mem_unrecognisedOpcodes_iff : ∀ {op : Code}, op ∈ unrecognisedOpcodes ↔ op ∉ recognisedOpcodes := by decide

/-- The list of R74 is the complement of the recognised function codes among the 64 values. -/
theorem mem_unrecognisedFunctions_iff : ∀ {fc : Code}, fc ∈ unrecognisedFunctions ↔ fc ∉ recognisedFunctions := by decide

/-! ### `classify_opcode` case by case (R110 to R114) -/

theorem classifyOpcode_trigger : classifyOpcode 0x00 = .value .trigger := rfl

theorem classifyOpcode_jump_code (j : JumpTag) : classifyOpcode j.code = .value (.jumpClass j) := by cases j <;> rfl

/-- Beside the trigger and the jumps, the classification is the lookup in `IMM_TABLE` (R113). -/
theorem classifyOpcode_of_other {op : Code} (h0 : op ≠ 0x00) (h2 : op ≠ 0x02) (h3 : op ≠ 0x03) :
    classifyOpcode op = match lookupImmediate op with
      | .value t => .value (.immClass t)
      | .error e => .error e :=
  (if_neg h0).trans ((if_neg h2).trans (if_neg h3))

theorem classifyOpcode_imm_code (t : ImmTag) : classifyOpcode t.code = .value (.immClass t) := by
  obtain ⟨h0, h2, h3⟩ := t.code_ne
  rw [classifyOpcode_of_other h0 h2 h3, lookupImmediate_code]

theorem classifyOpcode_eq_error_of_not_mem {op : Code} (h : op ∉ recognisedOpcodes) :
    classifyOpcode op = .error .unknownOpcode := by
  obtain ⟨⟨h0, h2, h3⟩, himm⟩ := not_mem_recognisedOpcodes_iff.1 h
  rw [classifyOpcode_of_other h0 h2 h3, lookupImmediate_eq_error_iff.2 himm]

/-! ### When `decode` answers each error (R119) -/

theorem decodeRegister_eq_error_iff {w : Word} {e : DecodeError} :
    decodeRegister w = .error e ↔ classifyFunction (functionCode w) = .error e := by
  rw [decodeRegister]
  cases classifyFunction (functionCode w) <;> simp

theorem decodeImmediate_eq_error_iff {w : Word} {e : DecodeError} :
    decodeImmediate w = .error e ↔ lookupImmediate (opcode w) = .error e := by
  rw [decodeImmediate]
  cases lookupImmediate (opcode w) <;> simp

/-- Only the register and the immediate path can fail, each by its own table (R119, R131 to R133). -/
theorem decode_eq_error_iff {w : Word} {e : DecodeError} :
    decode w = .error e ↔
      (opcode w = 0x00 ∧ classifyFunction (functionCode w) = .error e) ∨
      ((opcode w ≠ 0x00 ∧ opcode w ≠ 0x02 ∧ opcode w ≠ 0x03) ∧ lookupImmediate (opcode w) = .error e) := by
  by_cases h0 : opcode w = 0x00
  · rw [decode_of_opcode_zero h0, decodeRegister_eq_error_iff]
    simp only [h0, true_and, ne_eq, not_true_eq_false, false_and, or_false]
  · by_cases hj : opcode w = 0x02 ∨ opcode w = 0x03
    · have hnot : ¬(opcode w ≠ 0x02 ∧ opcode w ≠ 0x03) := fun h => hj.elim h.1 h.2
      rw [decode_of_opcode_jump hj, decodeJump]
      simp only [reduceCtorEq, h0, hnot, and_false, false_and, or_false]
    · obtain ⟨h2, h3⟩ := not_or.1 hj
      rw [decode_of_opcode_other h0 h2 h3, decodeImmediate_eq_error_iff]
      simp only [h0, h2, h3, ne_eq, not_false_eq_true, true_and, false_and, false_or]

theorem decode_eq_unknownOpcode_iff {w : Word} :
    decode w = .error .unknownOpcode ↔ opcode w ∉ recognisedOpcodes := by
  have hfunct : classifyFunction (functionCode w) ≠ .error .unknownOpcode :=
    fun h => nomatch classifyFunction_error h
  rw [decode_eq_error_iff, lookupImmediate_eq_error_iff, not_mem_recognisedOpcodes_iff]
  simp only [hfunct, and_false, false_or]

theorem decode_eq_unknownFunction_iff {w : Word} :
    decode w = .error .unknownFunction ↔ opcode w = 0x00 ∧ functionCode w ∉ recognisedFunctions := by
  have himm : lookupImmediate (opcode w) ≠ .error .unknownFunction :=
    fun h => nomatch lookupImmediate_error h
  rw [decode_eq_error_iff, classifyFunction_eq_error_iff]
  simp only [himm, and_false, or_false]

/-- A jump or immediate opcode leaves neither error possible (R112, R113). -/
theorem decode_succeeds_of_jump_or_immediate {w : Word} (h : opcode w ∈ [0x02, 0x03] ++ immediateOpcodes) :
    ∃ i, decode w = .value i := by
  cases hd : decode w with
  | value i => exact ⟨i, rfl⟩
  | error e =>
    cases e with
    | unknownOpcode => exact absurd (List.mem_cons_of_mem _ h) (decode_eq_unknownOpcode_iff.1 hd)
    | unknownFunction =>
      have hzero : (0x00 : Code) ∉ [0x02, 0x03] ++ immediateOpcodes := by decide
      exact absurd ((decode_eq_unknownFunction_iff.1 hd).1 ▸ h) hzero

/-! ### The statements -/

/-- Settles O7: each tag on its code, the error on the complement, and `decode`'s error by its opcode alone. -/
theorem opcodeClassificationTable : Obligations.OpcodeClassificationTable := by
  have hexample : decode 0xF8000000 = .error .unknownOpcode :=
    decode_eq_unknownOpcode_iff.2 (by decide)
  exact ⟨classifyOpcode_trigger, classifyOpcode_jump_code .jump, classifyOpcode_jump_code .jumpAndLink,
    classifyOpcode_imm_code .branchEqual, classifyOpcode_imm_code .branchNotEqual,
    classifyOpcode_imm_code .addImmediate, classifyOpcode_imm_code .addImmediateUnsigned,
    classifyOpcode_imm_code .setLessThanImmediate, classifyOpcode_imm_code .setLessThanImmediateUnsigned,
    classifyOpcode_imm_code .andImmediate, classifyOpcode_imm_code .orImmediate,
    classifyOpcode_imm_code .loadUpperImmediate, classifyOpcode_imm_code .loadWord,
    classifyOpcode_imm_code .loadByteUnsigned, classifyOpcode_imm_code .loadHalfwordUnsigned,
    classifyOpcode_imm_code .storeByte, classifyOpcode_imm_code .storeHalfword, classifyOpcode_imm_code .storeWord,
    fun _ => classifyOpcode_eq_error_of_not_mem,
    fun _ h => classifyOpcode_eq_error_of_not_mem (mem_unrecognisedOpcodes_iff.1 h), rfl,
    fun _ h herr => decode_eq_unknownOpcode_iff.1 herr h,
    fun _ => decode_succeeds_of_jump_or_immediate, hexample⟩

/-- Settles O8: each tag on its code, the error on the complement, and the error within `decode` at opcode 0 alone. -/
theorem functionClassificationTable : Obligations.FunctionClassificationTable := by
  have hexample : decode 0x0000003F = .error .unknownFunction :=
    decode_eq_unknownFunction_iff.2 (by decide)
  exact ⟨classifyFunction_code .shiftLeftLogical, classifyFunction_code .shiftRightLogical,
    classifyFunction_code .shiftRightArithmetic, classifyFunction_code .jumpRegister,
    classifyFunction_code .moveFromHi, classifyFunction_code .moveFromLo,
    classifyFunction_code .multiply, classifyFunction_code .multiplyUnsigned,
    classifyFunction_code .divide, classifyFunction_code .divideUnsigned,
    classifyFunction_code .add, classifyFunction_code .addUnsigned,
    classifyFunction_code .subtract, classifyFunction_code .subtractUnsigned,
    classifyFunction_code .and, classifyFunction_code .or, classifyFunction_code .xor, classifyFunction_code .nor,
    classifyFunction_code .setLessThan, classifyFunction_code .setLessThanUnsigned,
    fun _ => classifyFunction_eq_error_iff.2,
    fun _ h => classifyFunction_eq_error_iff.2 (mem_unrecognisedFunctions_iff.1 h), rfl,
    fun _ h => (decode_eq_unknownFunction_iff.1 h).1, hexample⟩

end Sys2Proof
end

section
/-! The Instruction Builder (spec/42_instruction_builder.md): what each of the three paths of `decode` answers (R131 to R133), under
which codes each outcome occurs (R134), and the four statements about them. -/

namespace Sys2Proof

open Sys2Proof.Stated

/-! ### The recognised codes are the codes of the tags (R111 to R115) -/

theorem mem_recognisedFunctions_iff_code {fc : Code} : fc ∈ recognisedFunctions ↔ ∃ f : FunctTag, fc = f.code := by
  rw [← not_iff_not, ← classifyFunction_eq_error_iff]
  constructor
  · rintro h ⟨f, rfl⟩
    exact nomatch (classifyFunction_code f).symm.trans h
  · intro h
    cases hc : classifyFunction fc with
    | value f => exact absurd ⟨f, (classifyFunction_eq_value.1 hc).symm⟩ h
    | error e => rw [classifyFunction_error hc]

theorem mem_immediateOpcodes_iff_code {op : Code} : op ∈ immediateOpcodes ↔ ∃ t : ImmTag, op = t.code := by
  rw [← not_iff_not, ← lookupImmediate_eq_error_iff]
  constructor
  · rintro h ⟨t, rfl⟩
    exact nomatch (lookupImmediate_code t).symm.trans h
  · intro h
    cases hl : lookupImmediate op with
    | value t => exact absurd ⟨t, (lookupImmediate_eq_value.1 hl).symm⟩ h
    | error e => rw [lookupImmediate_error hl]

/-- `classify_opcode` answers an immediate tag on that tag's own code alone (R113, R121). -/
theorem classifyOpcode_eq_immClass {op : Code} {t : ImmTag} :
    classifyOpcode op = .value (.immClass t) ↔ t.code = op := by
  constructor
  · intro h
    cases hl : lookupImmediate op with
    | value u =>
      obtain rfl := lookupImmediate_eq_value.1 hl
      cases (classifyOpcode_imm_code u).symm.trans h
      rfl
    | error e =>
      rw [classifyOpcode, hl] at h
      split_ifs at h <;> simp at h
  · rintro rfl
    exact classifyOpcode_imm_code t

/-! ### The form of a result and the word's codes (R134) -/

theorem decode_isRegister_iff {w : Word} :
    (∃ f rs rt rd shamt, decode w = .value (.register f rs rt rd shamt)) ↔
      opcode w = 0x00 ∧ functionCode w ∈ recognisedFunctions := by
  rw [mem_recognisedFunctions_iff_code]
  constructor
  · rintro ⟨f, rs, rt, rd, shamt, h⟩
    obtain ⟨hop, hfc, -⟩ := decode_eq_register.1 h
    exact ⟨hop, f, hfc⟩
  · rintro ⟨hop, f, hfc⟩
    exact ⟨f, _, _, _, _, decode_eq_register.2 ⟨hop, hfc, rfl, rfl, rfl, rfl⟩⟩

theorem decode_isJump_iff {w : Word} :
    (∃ j target, decode w = .value (.jump j target)) ↔ opcode w = 0x02 ∨ opcode w = 0x03 := by
  constructor
  · rintro ⟨j, target, h⟩
    obtain ⟨hop, -⟩ := decode_eq_jump.1 h
    cases j with
    | jump => exact .inl hop
    | jumpAndLink => exact .inr hop
  · intro h
    exact ⟨_, _, decode_of_opcode_jump h⟩

theorem decode_isImmediate_iff {w : Word} :
    (∃ t rs rt imm, decode w = .value (.immediate t rs rt imm)) ↔ opcode w ∈ immediateOpcodes := by
  rw [mem_immediateOpcodes_iff_code]
  constructor
  · rintro ⟨t, rs, rt, imm, h⟩
    obtain ⟨hop, -⟩ := decode_eq_immediate.1 h
    exact ⟨t, hop⟩
  · rintro ⟨t, hop⟩
    exact ⟨t, _, _, _, decode_eq_immediate.2 ⟨hop, rfl, rfl, rfl⟩⟩

theorem decode_eq_unknownFunction_iff_mem {w : Word} :
    decode w = .error .unknownFunction ↔ opcode w = 0x00 ∧ functionCode w ∈ unrecognisedFunctions := by
  rw [decode_eq_unknownFunction_iff, mem_unrecognisedFunctions_iff]

theorem decode_eq_unknownOpcode_iff_mem {w : Word} :
    decode w = .error .unknownOpcode ↔ opcode w ∈ unrecognisedOpcodes := by
  rw [decode_eq_unknownOpcode_iff, mem_unrecognisedOpcodes_iff]

/-- Each path's one classification is all that tells its outcomes apart, so equal codes give equal classes (R134). -/
theorem outcomeClass_decode_congr {w v : Word} (hop : opcode w = opcode v)
    (hfc : opcode w = 0x00 → functionCode w = functionCode v) :
    DecodeResult.outcomeClass (decode w) = DecodeResult.outcomeClass (decode v) := by
  by_cases h0 : opcode w = 0x00
  · rw [decode_of_opcode_zero h0, decode_of_opcode_zero (hop ▸ h0), decodeRegister, decodeRegister, hfc h0]
    cases classifyFunction (functionCode v) <;> rfl
  · by_cases hj : opcode w = 0x02 ∨ opcode w = 0x03
    · rw [decode_of_opcode_jump hj, decode_of_opcode_jump (hop ▸ hj)]
      rfl
    · obtain ⟨h2, h3⟩ := not_or.1 hj
      rw [decode_of_opcode_other h0 h2 h3, decode_of_opcode_other (hop ▸ h0) (hop ▸ h2) (hop ▸ h3), decodeImmediate,
        decodeImmediate, hop]
      cases lookupImmediate (opcode v) <;> rfl

/-! ### The register path reaches every operand value (R131, R62) -/

theorem opcode_encodeRegister (f : FunctTag) (rs rt rd : RegIndex) (shamt : ShiftAmount) :
    opcode (encodeRegister f rs rt rd shamt) = 0x00 :=
  opcode_formatR ..

theorem decode_encodeRegister (f : FunctTag) (rs rt rd : RegIndex) (shamt : ShiftAmount) :
    decode (encodeRegister f rs rt rd shamt) = .value (.register f rs rt rd shamt) :=
  decode_eq_register.2 ⟨opcode_formatR .., functionCode_formatR .., sourceRegister_formatR .., targetRegister_formatR ..,
    destinationRegister_formatR .., shiftAmount_formatR ..⟩

/-! ### The statements -/

/-- Settles O12: the inversion of a Register form on a recognised function code, the two errors by their codes, and the word of
format R for given operands; the examples are evaluated. -/
theorem registerPathDecodes : Obligations.RegisterPathDecodes := by
  refine ⟨fun w hop => ⟨?_, ?_, ?_⟩, fun f rs rt rd shamt => ?_, by decide⟩
  · intro f hf
    exact decode_eq_register.2 ⟨hop, (classifyFunction_eq_value.1 hf).symm, rfl, rfl, rfl, rfl⟩
  · exact decode_eq_unknownFunction_iff_mem.trans (and_iff_right hop)
  · intro herr
    have hzero : (0x00 : Code) ∈ recognisedOpcodes := by decide
    exact decode_eq_unknownOpcode_iff.1 herr (hop ▸ hzero)
  · exact ⟨encodeRegister f rs rt rd shamt, opcode_encodeRegister .., decode_encodeRegister ..⟩

/-- Settles O13: each jump opcode is the code of its tag, and a Jump form needs nothing else; the examples are evaluated. -/
theorem jumpPathDecodes : Obligations.JumpPathDecodes :=
  ⟨fun _ hop => decode_eq_jump.2 ⟨hop, rfl⟩, fun _ hop => decode_eq_jump.2 ⟨hop, rfl⟩, by decide⟩

/-- Settles O14: the inversion of an Immediate form on a recognised opcode, and the two errors by their codes; the examples are
evaluated. -/
theorem immediatePathDecodes : Obligations.ImmediatePathDecodes := by
  refine ⟨fun w h0 _ _ => ⟨?_, decode_eq_unknownOpcode_iff_mem, ?_⟩, by decide⟩
  · intro t ht
    exact decode_eq_immediate.2 ⟨(classifyOpcode_eq_immClass.1 ht).symm, rfl, rfl, rfl⟩
  · intro herr
    exact h0 (decode_eq_unknownFunction_iff.1 herr).1

/-- Settles O15: one equivalence per outcome, and equal codes give equal classes. -/
theorem outcomeClassIsDecidedByTheCodes : Obligations.OutcomeClassIsDecidedByTheCodes :=
  ⟨fun _ => ⟨decode_isRegister_iff, decode_eq_unknownFunction_iff_mem, decode_isJump_iff, decode_isImmediate_iff,
    decode_eq_unknownOpcode_iff_mem⟩, fun _ _ => outcomeClass_decode_congr⟩

end Sys2Proof
end

section
/-! The register family (spec/43_register_ops.md): the shape that R162 to R181 share, proved once for all twenty tags, the ports of a
Register form (R160), and the three statements about the family. -/

namespace Sys2Proof

open Sys2Proof.Stated
open Sys2Proof.Machine (Ports)

/-! ### The words of a register operation (R162 to R181) -/

/-- Opcode 0 bounds the word by `2 ^ 26`, and the last such word with a given function code has every operand bit set. -/
theorem opcode_zero_and_functionCode_iff_range {w : Word} {fc : Code} :
    opcode w = 0x00 ∧ functionCode w = fc ↔
      fc.setWidth 32 ≤ w ∧ w ≤ (0x03FFFFC0 : Word) + fc.setWidth 32 ∧ w.toNat % 64 = fc.toNat := by
  have hop : opcode w = 0x00 ↔ w.toNat / 2 ^ 26 = 0 := by
    rw [← opcode_toNat_eq_div, ← BitVec.toNat_inj]
    rfl
  have hfunct : functionCode w = fc ↔ w.toNat % 64 = fc.toNat := by
    rw [← BitVec.toNat_inj, functionCode_toNat]
    rfl
  rw [hop, hfunct]
  bv_omega

/-- The rule of every register operation at once: its pattern is its function code alone, at opcode 0 (R162 to R181). -/
theorem registerRule_code (f : FunctTag) :
    registerRule f f.code (f.code.setWidth 32) ((0x03FFFFC0 : Word) + f.code.setWidth 32) :=
  ⟨fun w => and_registerMask w f.code,
    fun w => (and_registerMask w f.code).trans opcode_zero_and_functionCode_iff_range,
    fun _ hop hfc => decode_eq_register.2 ⟨hop, hfc, rfl, rfl, rfl, rfl⟩,
    fun rs rt rd shamt => decode_encodeRegister f rs rt rd shamt⟩

/-! ### Codes that a rule calls unrecognised (R73, R74) -/

theorem failingFunctions_of_subset {l : List Code} (h : l ⊆ unrecognisedFunctions) : failingFunctions l :=
  fun _ hc => classifyFunction_eq_error_iff.2 (mem_unrecognisedFunctions_iff.1 (h hc))

theorem failingOpcodes_of_subset {l : List Code} (h : l ⊆ unrecognisedOpcodes) : failingOpcodes l :=
  fun _ hc => classifyOpcode_eq_error_of_not_mem (mem_unrecognisedOpcodes_iff.1 (h hc))

/-! ### The ports of a Register form (R160) -/

theorem ofResult_register (f : FunctTag) (rs rt rd : RegIndex) (shamt : ShiftAmount) :
    Ports.ofResult (.value (.register f rs rt rd shamt)) = registerPorts f.code rs rt rd shamt := rfl

/-! ### The statements -/

/-- Settles O16: each instruction's rule is the general one at its tag; the worked examples are evaluated, and the named neighbours
are codes of a tag or in the list of R74. -/
theorem registerRulesShiftToDivide : Obligations.RegisterRulesShiftToDivide :=
  ⟨registerRule_code .shiftLeftLogical, by decide, failingFunctions_of_subset (by decide),
    registerRule_code .shiftRightLogical, by decide, failingFunctions_of_subset (by decide),
    classifyFunction_code .shiftRightArithmetic,
    registerRule_code .shiftRightArithmetic, by decide, failingFunctions_of_subset (by decide),
    registerRule_code .jumpRegister, by decide, failingFunctions_of_subset (by decide),
    registerRule_code .moveFromHi, by decide, failingFunctions_of_subset (by decide),
    registerRule_code .moveFromLo, by decide, failingFunctions_of_subset (by decide),
    registerRule_code .multiply, by decide, failingFunctions_of_subset (by decide),
    registerRule_code .multiplyUnsigned, by decide,
    registerRule_code .divide, by decide,
    registerRule_code .divideUnsigned, by decide, failingFunctions_of_subset (by decide)⟩

/-- Settles O17: each instruction's rule is the general one at its tag; the worked examples are evaluated, and the named neighbours
are codes of a tag or in the list of R73 or R74. -/
theorem registerRulesAddToSetLess : Obligations.RegisterRulesAddToSetLess :=
  ⟨registerRule_code .add, by decide, failingOpcodes_of_subset (by decide),
    registerRule_code .addUnsigned, by decide,
    registerRule_code .subtract, by decide,
    registerRule_code .subtractUnsigned, by decide, classifyOpcode_imm_code .loadWord,
    registerRule_code .and, by decide, classifyFunction_code .add, classifyFunction_code .addUnsigned,
    classifyFunction_code .subtract, classifyFunction_code .subtractUnsigned, classifyFunction_code .and,
    classifyFunction_code .or, classifyFunction_code .xor, classifyFunction_code .nor,
    registerRule_code .or, by decide,
    registerRule_code .xor, by decide, failingOpcodes_of_subset (by decide),
    registerRule_code .nor, by decide, failingFunctions_of_subset (by decide),
    registerRule_code .setLessThan, by decide, failingFunctions_of_subset (by decide), failingOpcodes_of_subset (by decide),
    registerRule_code .setLessThanUnsigned, by decide, failingFunctions_of_subset (by decide),
    classifyOpcode_imm_code .storeWord⟩

/-- Settles O21: a function code of the family is the code of a tag, which fixes the decode and, through it, every port. -/
theorem registerFamilyDecodesAndDrivesPorts : Obligations.RegisterFamilyDecodesAndDrivesPorts := by
  refine ⟨fun _ => decode_isRegister_iff, fun _ hop hfc => decode_eq_unknownFunction_iff.2 ⟨hop, hfc⟩, fun w hop hmem => ?_⟩
  obtain ⟨f, hfc⟩ := mem_recognisedFunctions_iff_code.1 hmem
  have hdecode := decode_eq_register.2 ⟨hop, hfc, rfl, rfl, rfl, rfl⟩
  refine ⟨f, classifyFunction_eq_value.2 hfc.symm, hdecode, rfl, ?_⟩
  rw [hdecode, ofResult_register, hfc]

end Sys2Proof
end

section
/-! The jump family (spec/44_jump_ops.md): the range of words of an opcode, the rule that R193 and R194 share, proved once for both
tags, the ports of a Jump form (R190), and the two statements about the family. -/

namespace Sys2Proof

open Sys2Proof.Stated
open Sys2Proof.Machine (Ports)

/-! ### The words of an opcode (R72) -/

theorem toNat_opcode_append (op : Code) (payload : BitVec 26) :
    (op ++ payload).toNat = op.toNat * 2 ^ 26 + payload.toNat := by
  rw [BitVec.toNat_append, ← Nat.shiftLeft_add_eq_or_of_lt payload.isLt, Nat.shiftLeft_eq]

/-- The words of an opcode are the interval from its payload of zeros to its payload of ones. -/
theorem opcode_eq_iff_range {w : Word} {op : Code} :
    opcode w = op ↔ op ++ (0 : BitVec 26) ≤ w ∧ w ≤ op ++ BitVec.allOnes 26 := by
  have hzeros : (0 : BitVec 26).toNat = 0 := rfl
  rw [← BitVec.toNat_inj, opcode_toNat_eq_div, BitVec.le_def, BitVec.le_def, toNat_opcode_append, toNat_opcode_append,
    hzeros, BitVec.toNat_allOnes]
  omega

/-! ### The words of a jump (R193, R194) -/

/-- A jump opcode before any payload is a word of that jump with exactly that payload (R132). -/
theorem decode_jumpCode_append (j : JumpTag) (payload : BitVec 26) :
    decode (j.code ++ payload) = .value (.jump j (payload.setWidth 32)) :=
  decode_eq_jump.2 ⟨opcode_formatJ .., targetAddress_formatJ ..⟩

/-- The rule of both jumps at once: the pattern is the opcode alone, and every payload is an operand. -/
theorem jumpRule_code (j : JumpTag) :
    jumpRule j j.code (j.code ++ (0 : BitVec 26)) (j.code ++ BitVec.allOnes 26) :=
  ⟨fun w => and_opcodeMask w j.code,
    fun w => (and_opcodeMask w j.code).trans opcode_eq_iff_range,
    fun _ hop => decode_eq_jump.2 ⟨hop, rfl⟩,
    decode_jumpCode_append j⟩

/-! ### The ports of a Jump form (R190) -/

theorem ofResult_jump (j : JumpTag) (target : Word) :
    Ports.ofResult (.value (.jump j target)) = jumpPorts j.code target := rfl

/-! ### The statements -/

/-- Settles O18: each instruction's rule is the general one at its tag; the worked examples are evaluated, and the named neighbours
are codes of a tag or in the list of R73. -/
theorem jumpRules : Obligations.JumpRules :=
  ⟨jumpRule_code .jump, by decide,
    jumpRule_code .jumpAndLink, by decide, failingOpcodes_of_subset (by decide),
    classifyOpcode_imm_code .branchEqual, classifyOpcode_jump_code .jump⟩

/-- Settles O22: a jump opcode fixes the decode, and the tag it decodes to drives that same opcode. -/
theorem jumpFamilyDecodesAndDrivesPorts : Obligations.JumpFamilyDecodesAndDrivesPorts := by
  refine ⟨fun _ => decode_isJump_iff, fun w hop => ?_⟩
  have hdecode := decode_of_opcode_jump hop
  obtain ⟨hcode, -⟩ := decode_eq_jump.1 hdecode
  refine ⟨hdecode, ?_⟩
  rw [hdecode, decodeJump, ofResult_jump, ← hcode]

end Sys2Proof
end

section
/-! The immediate ALU and branch family (spec/45_immediate_alu_branch_ops.md): the rule that every operation of `IMM_TABLE` shares,
proved once for all fifteen tags, the ports of an Immediate form (R200), and the two statements about the family. -/

namespace Sys2Proof

open Sys2Proof.Stated
open Sys2Proof.Machine (Ports)

/-! ### The words of an immediate operation (R203 to R211) -/

/-- An immediate opcode before any operand fields is a word of that operation, and its immediate is the pattern read as a signed
number (R133, R97). -/
theorem decode_immediateCode_append (t : ImmTag) (rs rt : RegIndex) (pattern : BitVec 16) :
    decode (t.code ++ rs ++ rt ++ pattern) = .value (.immediate t rs rt pattern.toInt) :=
  decode_eq_immediate.2 ⟨opcode_formatI .., sourceRegister_formatI .., targetRegister_formatI ..,
    immediate_of_pattern (immediateBits_formatI ..)⟩

/-- The rule of every immediate operation at once: the pattern is the opcode alone, and every operand value occurs. -/
theorem immediateRule_code (t : ImmTag) :
    immediateRule t t.code (t.code ++ (0 : BitVec 26)) (t.code ++ BitVec.allOnes 26) :=
  ⟨fun w => and_opcodeMask w t.code,
    fun w => (and_opcodeMask w t.code).trans opcode_eq_iff_range,
    fun _ hop => decode_eq_immediate.2 ⟨hop, rfl, rfl, rfl⟩,
    decode_immediateCode_append t⟩

/-! ### The ports of an Immediate form (R200) -/

theorem ofResult_immediate (t : ImmTag) (rs rt : RegIndex) (imm : Int) :
    Ports.ofResult (.value (.immediate t rs rt imm)) = immediatePorts t.code rs rt (BitVec.ofInt 16 imm) := rfl

/-! ### The statements -/

/-- Settles O19: each instruction's rule is the general one at its tag; the worked examples are evaluated, and the named neighbours
are in the list of R73. -/
theorem immediateRules : Obligations.ImmediateRules :=
  ⟨immediateRule_code .branchEqual, by decide, failingOpcodes_of_subset (by decide),
    immediateRule_code .branchNotEqual, by decide, failingOpcodes_of_subset (by decide),
    immediateRule_code .addImmediate, by decide, failingOpcodes_of_subset (by decide),
    immediateRule_code .addImmediateUnsigned, by decide,
    immediateRule_code .setLessThanImmediate, by decide,
    immediateRule_code .setLessThanImmediateUnsigned, by decide,
    immediateRule_code .andImmediate, by decide,
    immediateRule_code .orImmediate, by decide, failingOpcodes_of_subset (by decide),
    immediateRule_code .loadUpperImmediate, by decide, failingOpcodes_of_subset (by decide)⟩

/-- Settles O23: an opcode of the family is the code of a tag, which fixes the decode; through it the tag drives that same opcode and
the immediate drives its own pattern. -/
theorem immediateFamilyDecodesAndDrivesPorts : Obligations.ImmediateFamilyDecodesAndDrivesPorts := by
  refine ⟨fun _ => decode_isImmediate_iff, fun _ => decode_eq_unknownOpcode_iff.2, fun w hmem => ?_⟩
  obtain ⟨t, hop⟩ := mem_immediateOpcodes_iff_code.1 hmem
  have hdecode := decode_eq_immediate.2 ⟨hop, rfl, rfl, rfl⟩
  refine ⟨t, classifyOpcode_eq_immClass.2 hop.symm, hdecode, ?_⟩
  rw [hdecode, ofResult_immediate, hop, ofInt_immediate]

end Sys2Proof
end

section
/-! The loads and stores (spec/46_immediate_load_store_ops.md): they are rows of `IMM_TABLE`, so each is the rule of the immediate
operations at its own tag. -/

namespace Sys2Proof

/-- Settles O20: each instruction's rule is the general one at its tag; the worked examples are evaluated, the named neighbouring
opcodes are in the list of R73, and the function codes equal to an opcode here are codes of a register operation's tag. -/
theorem loadStoreRules : Obligations.LoadStoreRules :=
  ⟨immediateRule_code .loadWord, by decide, failingOpcodes_of_subset (by decide), classifyFunction_code .subtractUnsigned,
    immediateRule_code .loadByteUnsigned, by decide,
    immediateRule_code .loadHalfwordUnsigned, by decide, failingOpcodes_of_subset (by decide),
    immediateRule_code .storeByte, by decide,
    immediateRule_code .storeHalfword, by decide, failingOpcodes_of_subset (by decide), classifyFunction_code .setLessThan,
    immediateRule_code .storeWord, by decide, failingOpcodes_of_subset (by decide),
    classifyFunction_code .setLessThanUnsigned⟩

end Sys2Proof
end

section
/-! The two decode errors (spec/60_exceptions.md): the codes that decide each (R241, R242) decide it alone, and the error records nothing
of the word (D7). -/

namespace Sys2Proof

open Sys2Proof.Stated

/-! ### The rest of the word plays no part -/

/-- Whatever stands in bits 25 to 0 (R241). -/
theorem decode_eq_unknownOpcode_congr {w v : Word} (hop : opcode v = opcode w) :
    decode v = .error .unknownOpcode ↔ decode w = .error .unknownOpcode := by
  rw [decode_eq_unknownOpcode_iff, decode_eq_unknownOpcode_iff, hop]

/-- Whatever stands in bits 25 to 6 (R242). -/
theorem decode_eq_unknownFunction_congr {w v : Word} (hop : opcode v = opcode w) (hfc : functionCode v = functionCode w) :
    decode v = .error .unknownFunction ↔ decode w = .error .unknownFunction := by
  rw [decode_eq_unknownFunction_iff, decode_eq_unknownFunction_iff, hop, hfc]

/-! ### The statements -/

/-- Settles O25: the error and its condition are equivalent, so it depends on the opcode alone, and all failing words share the one
value. -/
theorem unknownOpcodeExactly : Obligations.UnknownOpcodeExactly := by
  refine ⟨fun _ => decode_eq_unknownOpcode_iff, ?_, ?_, decode_eq_unknownOpcode_iff.2 (by decide)⟩
  · intro w v hw hop
    exact (decode_eq_unknownOpcode_congr hop).2 hw
  · intro w v hw hv
    exact (decode_eq_unknownOpcode_iff.2 hw).trans (decode_eq_unknownOpcode_iff.2 hv).symm

/-- Settles O26: the error and its condition are equivalent, so it depends on the opcode and the function code alone, and all failing
words share the one value. -/
theorem unknownFunctionExactly : Obligations.UnknownFunctionExactly := by
  refine ⟨fun _ => decode_eq_unknownFunction_iff, ?_, ?_, decode_eq_unknownFunction_iff.2 (by decide),
    decode_eq_unknownFunction_iff.2 (by decide)⟩
  · intro w v hw hv hfc
    obtain ⟨hop, -⟩ := decode_eq_unknownFunction_iff.1 hw
    exact (decode_eq_unknownFunction_congr (hv.trans hop.symm) hfc).2 hw
  · intro w v hw hwfc hv hvfc
    exact (decode_eq_unknownFunction_iff.2 ⟨hw, hwfc⟩).trans (decode_eq_unknownFunction_iff.2 ⟨hv, hvfc⟩).symm

end Sys2Proof
end

section
/-! The words and the values: the fields of a word recompose it (R105), the encoder's words as numbers (R79), and from the two the
round trips between words and decoded values, in both directions (R138). -/

namespace Sys2Proof

/-! ### The fields recompose the word (R105) -/

theorem toNat_eq_opcode_add_targetAddress (w : Word) :
    w.toNat = (opcode w).toNat * 2 ^ 26 + (targetAddress w).toNat := by
  rw [opcode_toNat_eq_div, targetAddress_toNat]
  omega

theorem targetAddress_toNat_eq_fields (w : Word) :
    (targetAddress w).toNat =
      (sourceRegister w).toNat * 2 ^ 21 + (targetRegister w).toNat * 2 ^ 16 + (immediateBits w).toNat := by
  rw [targetAddress_toNat, sourceRegister_toNat, targetRegister_toNat, immediateBits_toNat]
  omega

theorem immediateBits_toNat_eq_fields (w : Word) :
    (immediateBits w).toNat =
      (destinationRegister w).toNat * 2 ^ 11 + (shiftAmount w).toNat * 2 ^ 6 + (functionCode w).toNat := by
  rw [immediateBits_toNat, destinationRegister_toNat, shiftAmount_toNat, functionCode_toNat]
  omega

/-- The four fields of format I (R64). -/
theorem toNat_eq_formatI (w : Word) :
    w.toNat = (opcode w).toNat * 2 ^ 26 + (sourceRegister w).toNat * 2 ^ 21 + (targetRegister w).toNat * 2 ^ 16 +
      (immediateBits w).toNat := by
  rw [toNat_eq_opcode_add_targetAddress w, targetAddress_toNat_eq_fields]
  ring

/-- The six fields of format R (R62). -/
theorem toNat_eq_formatR (w : Word) :
    w.toNat = (opcode w).toNat * 2 ^ 26 + (sourceRegister w).toNat * 2 ^ 21 + (targetRegister w).toNat * 2 ^ 16 +
      (destinationRegister w).toNat * 2 ^ 11 + (shiftAmount w).toNat * 2 ^ 6 + (functionCode w).toNat := by
  rw [toNat_eq_formatI w, immediateBits_toNat_eq_fields]
  ring

/-! ### The words of the encoder as numbers (R79) -/

theorem toNat_append_eq_add {m n : Nat} (x : BitVec m) (y : BitVec n) : (x ++ y).toNat = x.toNat * 2 ^ n + y.toNat := by
  rw [BitVec.toNat_append, ← Nat.shiftLeft_add_eq_or_of_lt y.isLt, Nat.shiftLeft_eq]

theorem encodeRegister_toNat (f : FunctTag) (rs rt rd : RegIndex) (shamt : ShiftAmount) :
    (encodeRegister f rs rt rd shamt).toNat =
      rs.toNat * 2 ^ 21 + rt.toNat * 2 ^ 16 + rd.toNat * 2 ^ 11 + shamt.toNat * 2 ^ 6 + f.code.toNat := by
  have hzero : OpTag.registerTrigger.code.toNat = 0 := rfl
  simp only [encodeRegister, toNat_append_eq_add, hzero]
  omega

theorem encodeJump_toNat (j : JumpTag) {target : Word} (h : targetInRange target = true) :
    (encodeJump j target).toNat = j.code.toNat * 2 ^ 26 + target.toNat := by
  have hlow : target.toNat % 2 ^ 26 = target.toNat := Nat.mod_eq_of_lt (of_decide_eq_true h)
  rw [encodeJump, toNat_append_eq_add, BitVec.toNat_setWidth, hlow]

/-- The pattern of an integer is the integer modulo `2 ^ 16` (R66), whatever the integer. -/
theorem encodeImmediate_toNat (t : ImmTag) (rs rt : RegIndex) (imm : Int) :
    ((encodeImmediate t rs rt imm).toNat : Int) =
      t.code.toNat * 2 ^ 26 + rs.toNat * 2 ^ 21 + rt.toNat * 2 ^ 16 + imm % 65536 := by
  have hpattern : ((BitVec.ofInt 16 imm).toNat : Int) = imm % 65536 := by
    rw [BitVec.toNat_ofInt]
    omega
  simp only [encodeImmediate, toNat_append_eq_add]
  push_cast [hpattern]
  ring

/-! ### The ranges of R29 -/

theorem immInRange_iff {imm : Int} : immInRange imm = true ↔ -32768 ≤ imm ∧ imm ≤ 32767 := by
  rw [immInRange, Bool.and_eq_true, decide_eq_true_iff, decide_eq_true_iff]

theorem targetInRange_targetAddress (w : Word) : targetInRange (targetAddress w) = true :=
  decide_eq_true (Nat.lt_succ_of_le (targetAddress_le w))

/-- A 16-bit signed integer is recoverable from its pattern (R66). -/
theorem toInt_ofInt_of_immInRange {imm : Int} (h : immInRange imm = true) : (BitVec.ofInt 16 imm).toInt = imm := by
  obtain ⟨hlow, hhigh⟩ := immInRange_iff.1 h
  exact BitVec.toInt_ofInt_eq_self (by decide) hlow (Int.lt_add_one_of_le hhigh)

/-- A payload below `2 ^ 26` is recoverable from its low 26 bits (R67). -/
theorem setWidth_setWidth_of_targetInRange {target : Word} (h : targetInRange target = true) :
    (target.setWidth 26).setWidth 32 = target := by
  have hlow : target.toNat < 2 ^ 26 := of_decide_eq_true h
  apply BitVec.eq_of_toNat_eq
  rw [BitVec.toNat_setWidth, BitVec.toNat_setWidth, Nat.mod_eq_of_lt hlow, Nat.mod_eq_of_lt target.isLt]

theorem Instr.wellFormed_eq_legal (i : Instr) : i.wellFormed = i.toInstruction.legal := by cases i <;> rfl

/-! ### From a value to its word and back (R79) -/

theorem decode_encodeInstruction {i : Instruction} (h : i.legal = true) : decode (encodeInstruction i) = .value i := by
  cases i with
  | register f rs rt rd shamt => exact decode_encodeRegister f rs rt rd shamt
  | jump j target =>
    have hdecode := decode_jumpCode_append j (target.setWidth 26)
    rwa [setWidth_setWidth_of_targetInRange h] at hdecode
  | immediate t rs rt imm =>
    have hdecode := decode_immediateCode_append t rs rt (BitVec.ofInt 16 imm)
    rwa [toInt_ofInt_of_immInRange h] at hdecode

/-! ### From a word to its value and back (R138) -/

/-- Every decoded value is in the ranges of the data model (R30). -/
theorem legal_of_decode {w : Word} {i : Instruction} (h : decode w = .value i) : i.legal = true := by
  cases i with
  | register f rs rt rd shamt => rfl
  | jump j target =>
    obtain ⟨-, rfl⟩ := decode_eq_jump.1 h
    exact targetInRange_targetAddress w
  | immediate t rs rt imm =>
    obtain ⟨-, -, -, rfl⟩ := decode_eq_immediate.1 h
    exact immInRange_iff.2 (immediate_range w)

/-- Every result of `decode` is one R29 and R32 allow. -/
theorem legal_decode (w : Word) : DecodeResult.legal (decode w) = true := by
  cases hd : decode w with
  | value i => exact legal_of_decode hd
  | error e => rfl

/-- In each form the encoder puts the decoded fields back at the places from which they recompose the word (R105). -/
theorem encodeInstruction_of_decode {w : Word} {i : Instruction} (h : decode w = .value i) : encodeInstruction i = w := by
  apply BitVec.eq_of_toNat_eq
  cases i with
  | register f rs rt rd shamt =>
    obtain ⟨hop, hfc, rfl, rfl, rfl, rfl⟩ := decode_eq_register.1 h
    have hzero : (0x00 : Code).toNat = 0 := rfl
    have hword := toNat_eq_formatR w
    rw [hop, hfc, hzero, Nat.zero_mul, Nat.zero_add] at hword
    rw [encodeInstruction, encodeRegister_toNat, hword]
  | jump j target =>
    obtain ⟨hop, rfl⟩ := decode_eq_jump.1 h
    rw [encodeInstruction, encodeJump_toNat j (targetInRange_targetAddress w), ← hop,
      ← toNat_eq_opcode_add_targetAddress]
  | immediate t rs rt imm =>
    obtain ⟨hop, rfl, rfl, rfl⟩ := decode_eq_immediate.1 h
    have hword := toNat_eq_formatI w
    have hencode := encodeImmediate_toNat t (sourceRegister w) (targetRegister w) (immediate w)
    rw [immediate_mod, ← hop] at hencode
    rw [encodeInstruction]
    omega

/-! ### The fields below an immediate opcode (R228) -/

/-- Words with the same bits 25 to 0 decode to the same operands under any two immediate opcodes. -/
theorem decode_immediate_congr {w v : Word} {t u : ImmTag} {rs rt : RegIndex} {imm : Int}
    (hlow : w.extractLsb' 0 26 = v.extractLsb' 0 26) (hw : decode w = .value (.immediate t rs rt imm))
    (hv : opcode v = u.code) : decode v = .value (.immediate u rs rt imm) := by
  have hmod : w.toNat % 2 ^ 26 = v.toNat % 2 ^ 26 := by
    simpa [BitVec.extractLsb'_toNat] using congrArg BitVec.toNat hlow
  obtain ⟨-, rfl, rfl, rfl⟩ := decode_eq_immediate.1 hw
  refine decode_eq_immediate.2 ⟨hv, ?_, ?_, immediate_of_pattern ?_⟩ <;> apply BitVec.eq_of_toNat_eq
  · rw [sourceRegister_toNat, sourceRegister_toNat]
    omega
  · rw [targetRegister_toNat, targetRegister_toNat]
    omega
  · rw [immediateBits_toNat, immediateBits_toNat]
    omega

/-! ### The two jump opcodes (R112) -/

theorem JumpTag.code_toNat_bounds (j : JumpTag) : 2 ≤ j.code.toNat ∧ j.code.toNat ≤ 3 := by cases j <;> decide

/-- Bit 26 of the word, the lowest of the opcode, tells the two jumps apart. -/
theorem JumpTag.eq_jump_iff (j : JumpTag) : j = .jump ↔ j.code.getLsbD 0 = false := by cases j <;> decide

/-! ### The same through the names of the rows (R70, R71) -/

theorem toInstr_toInstruction (i : Instr) : i.toInstruction.toInstr = i := by cases i <;> rfl

theorem decodeInstr_eq_value_iff {w : Word} {i : Instr} : decodeInstr w = .value i ↔ decode w = .value i.toInstruction := by
  constructor
  · exact decodeInstr_eq_value
  · intro h
    rw [decodeInstr, h, ← toInstr_toInstruction i, toInstruction_toInstr]

/-! ### The statements -/

/-- Settles O30: the word of a legal value decodes to that value, and well-formed instructions name the legal values. -/
theorem decodeEncodeRoundTrip : Obligations.DecodeEncodeRoundTrip := by
  intro i hi
  rw [i.wellFormed_eq_legal] at hi
  exact decodeInstr_eq_value_iff.2 (decode_encodeInstruction hi)

/-- Settles O31: a decoded value is legal and encodes to its word, so its word is determined by it. -/
theorem encodeDecodeRoundTrip : Obligations.EncodeDecodeRoundTrip := by
  constructor
  · intro w i h
    have hdecode := decodeInstr_eq_value h
    exact ⟨i.wellFormed_eq_legal.trans (legal_of_decode hdecode), encodeInstruction_of_decode hdecode⟩
  · intro w v i hw hv
    exact (encodeInstruction_of_decode hw).symm.trans (encodeInstruction_of_decode hv)

/-- Settles O32: the encoder's word decodes to the value, and every word that does is the encoder's. -/
theorem everyLegalValueHasExactlyOneWord : Obligations.EveryLegalValueHasExactlyOneWord :=
  fun i hi => ⟨encodeInstruction i, decode_encodeInstruction hi, fun _ hw => (encodeInstruction_of_decode hw).symm⟩

/-- Settles O33: one formula per form. -/
theorem encodingFormulas : Obligations.EncodingFormulas :=
  ⟨encodeRegister_toNat, fun j _ h => encodeJump_toNat j h, fun t rs rt imm _ => encodeImmediate_toNat t rs rt imm⟩

/-- Settles O29: the range of the value and, form by form, the inversion of `decode` on its codes. -/
theorem legalFormWithAgreeingTag : Obligations.LegalFormWithAgreeingTag := by
  intro w i h
  refine ⟨legal_of_decode h, ?_⟩
  cases i with
  | register f rs rt rd shamt =>
    obtain ⟨hop, hfc, -⟩ := decode_eq_register.1 h
    exact ⟨rfl, hop, hfc.symm⟩
  | jump j target =>
    obtain ⟨hop, -⟩ := decode_eq_jump.1 h
    exact ⟨rfl, hop.symm⟩
  | immediate t rs rt imm =>
    obtain ⟨hop, -⟩ := decode_eq_immediate.1 h
    exact ⟨rfl, by simp [Instruction.opTag], hop.symm⟩

/-- Settles O24: the fields are those of the inversion of `decode`, and the sum is the encoder's formula for the word, which is the
encoding of its value. -/
theorem familyLawsOfFidelityAndRebuild : Obligations.FamilyLawsOfFidelityAndRebuild := by
  refine ⟨fun w f a b c d h => ?_, fun w j t h => ?_, fun w t a b i h => ?_⟩
  · obtain ⟨-, hfc, rfl, rfl, rfl, rfl⟩ := decode_eq_register.1 h
    refine ⟨rfl, rfl, rfl, rfl, hfc.symm, ?_⟩
    rw [← encodeRegister_toNat]
    exact congrArg BitVec.toNat (encodeInstruction_of_decode h).symm
  · obtain ⟨hop, rfl⟩ := decode_eq_jump.1 h
    have hword := toNat_eq_opcode_add_targetAddress w
    have hle := targetAddress_le w
    have hbit : (opcode w).getLsbD 0 = w.getLsbD 26 := by rw [opcode, BitVec.getLsbD_extractLsb']; rfl
    obtain ⟨hlow, hhigh⟩ := j.code_toNat_bounds
    rw [hop] at hword hbit
    exact ⟨targetAddress_toNat w, hbit ▸ j.eq_jump_iff, hword, by omega, by omega⟩
  · obtain ⟨hop, rfl, rfl, rfl⟩ := decode_eq_immediate.1 h
    refine ⟨rfl, rfl, rfl, hop.symm, ?_⟩
    rw [← encodeImmediate_toNat]
    exact congrArg (fun v : Word => (v.toNat : Int)) (encodeInstruction_of_decode h).symm

/-- Settles O5: the two formats, the opcode with its payload, and the two nested splits. -/
theorem fieldsRecomposeTheWord : Obligations.FieldsRecomposeTheWord :=
  fun w => ⟨toNat_eq_formatR w, toNat_eq_formatI w, toNat_eq_opcode_add_targetAddress w,
    immediateBits_toNat_eq_fields w, targetAddress_toNat_eq_fields w⟩

/-- Settles O6: each extraction is a slice at a fixed place, and the signed reading keeps its pattern. -/
theorem extractorsAreWires : Obligations.ExtractorsAreWires := by
  intro w i
  have htarget : (targetAddress w).getLsbD i = (decide (i < 26) && w.getLsbD i) := by
    rw [targetAddress, BitVec.getLsbD_setWidth, BitVec.getLsbD_extractLsb', Nat.zero_add]
    by_cases hi : i < 26
    · simp [hi, Nat.lt_trans hi]
    · simp [hi]
  have hfunct : (functionCode w).getLsbD i = (decide (i < 6) && w.getLsbD i) := by
    rw [functionCode, BitVec.getLsbD_extractLsb', Nat.zero_add]
  have himm : (immediateBits w).getLsbD i = (decide (i < 16) && w.getLsbD i) := by
    rw [immediateBits, BitVec.getLsbD_extractLsb', Nat.zero_add]
  exact ⟨BitVec.getLsbD_extractLsb' .., BitVec.getLsbD_extractLsb' .., BitVec.getLsbD_extractLsb' ..,
    BitVec.getLsbD_extractLsb' .., BitVec.getLsbD_extractLsb' .., hfunct, himm, htarget, ofInt_immediate w⟩

end Sys2Proof
end

section
/-! The classification and the dispatch (spec/41_opcode_classifier.md, spec/42_instruction_builder.md): each code has one class and
each class one code (R118, R121), and `decode` is the answer of the one case that takes the word, whatever the order in which the
cases are tried (R120, R135, C7). -/

namespace Sys2Proof

open Sys2Proof.Stated

/-! ### One class for a code, one code for a class (R118, R121) -/

/-- The opcode of a class: what the tag port carries for it (D3). -/
def OpcodeClass.code : OpcodeClass → Code
  | .trigger => OpTag.registerTrigger.code
  | .jumpClass j => j.code
  | .immClass t => t.code

/-- The classification of an opcode, read both ways. -/
theorem classifyOpcode_eq_value {op : Code} {k : OpcodeClass} : classifyOpcode op = .value k ↔ k.code = op := by
  constructor
  · intro h
    rw [classifyOpcode] at h
    split_ifs at h with h0 h2 h3
    · cases h; exact h0.symm
    · cases h; exact h2.symm
    · cases h; exact h3.symm
    · cases hl : lookupImmediate op with
      | value t =>
        rw [hl] at h
        cases h
        exact lookupImmediate_eq_value.1 hl
      | error e =>
        rw [hl] at h
        cases h
  · rintro rfl
    cases k with
    | trigger => exact classifyOpcode_trigger
    | jumpClass j => exact classifyOpcode_jump_code j
    | immClass t => exact classifyOpcode_imm_code t

/-- The classification fails exactly where neither a fixed opcode nor `IMM_TABLE` answers, with the table's error (R114). -/
theorem classifyOpcode_eq_error_iff {op : Code} {e : DecodeError} :
    classifyOpcode op = .error e ↔ (op ≠ 0x00 ∧ op ≠ 0x02 ∧ op ≠ 0x03) ∧ lookupImmediate op = .error e := by
  constructor
  · intro h
    have hne : op ≠ 0x00 ∧ op ≠ 0x02 ∧ op ≠ 0x03 := by
      refine ⟨?_, ?_, ?_⟩ <;> rintro rfl <;> cases h
    obtain ⟨h0, h2, h3⟩ := hne
    rw [classifyOpcode_of_other h0 h2 h3] at h
    cases hl : lookupImmediate op with
    | value t => rw [hl] at h; cases h
    | error e' => rw [hl] at h; cases h; exact ⟨⟨h0, h2, h3⟩, rfl⟩
  · rintro ⟨⟨h0, h2, h3⟩, hl⟩
    rw [classifyOpcode_of_other h0 h2 h3, hl]

/-! ### The cases of `decode` are disjoint and leave only `UnknownOpcode` (R120) -/

/-- A case that takes a word answers its decode: no word is taken by two cases with different answers. -/
theorem decode_eq_of_dispatchCase {w : Word} {r : DecodeResult} {case : Word → Option DecodeResult}
    (hcase : case ∈ dispatchCases) (h : case w = some r) : decode w = r := by
  simp only [dispatchCases, List.mem_cons, List.not_mem_nil, or_false] at hcase
  rcases hcase with rfl | rfl | rfl | rfl
  · obtain ⟨h0, h⟩ := Option.ite_none_right_eq_some.1 h
    exact (decode_of_opcode_zero h0).trans (Option.some.inj h)
  · obtain ⟨h2, h⟩ := Option.ite_none_right_eq_some.1 h
    exact (decode_eq_jump.2 ⟨h2, rfl⟩).trans (Option.some.inj h)
  · obtain ⟨h3, h⟩ := Option.ite_none_right_eq_some.1 h
    exact (decode_eq_jump.2 ⟨h3, rfl⟩).trans (Option.some.inj h)
  · cases hl : lookupImmediate (opcode w) with
    | value t =>
      simp only [hl] at h
      exact (decode_eq_immediate.2 ⟨(lookupImmediate_eq_value.1 hl).symm, rfl, rfl, rfl⟩).trans (Option.some.inj h)
    | error e => simp [hl] at h

theorem decode_of_no_dispatchCase {w : Word} (h : ∀ case ∈ dispatchCases, case w = none) :
    decode w = .error .unknownOpcode := by
  simp only [dispatchCases, List.forall_mem_cons, ite_eq_right_iff, reduceCtorEq, imp_false] at h
  obtain ⟨h0, h2, h3, himm, -⟩ := h
  cases hl : lookupImmediate (opcode w) with
  | value t => simp [hl] at himm
  | error e => exact decode_eq_error_iff.2 (.inr ⟨⟨h0, h2, h3⟩, lookupImmediate_error hl ▸ hl⟩)

/-! ### The statements -/

/-- Settles O9: each clause is the classification read from the class to its code. -/
theorem eachCodeHasExactlyOneTag : Obligations.EachCodeHasExactlyOneTag :=
  ⟨fun _ _ _ hc hd => (classifyOpcode_eq_value.1 hc).symm.trans (classifyOpcode_eq_value.1 hd),
    fun _ _ _ hc hd => (classifyFunction_eq_value.1 hc).symm.trans (classifyFunction_eq_value.1 hd),
    fun _ _ => classifyFunction_eq_value, fun _ _ => classifyOpcode_eq_value, fun _ _ => classifyOpcode_eq_value,
    fun _ => classifyOpcode_eq_value, fun _ _ h => lookupImmediate_error (classifyOpcode_eq_error_iff.1 h).2,
    fun _ _ => classifyFunction_error⟩

/-- Settles O10: each number is the code of a tag in the table that recognises it, and is missing from the other. -/
theorem classifiersAreIndependentTables : Obligations.ClassifiersAreIndependentTables :=
  ⟨classifyFunction_code .setLessThan, classifyOpcode_eq_error_of_not_mem (by decide), classifyOpcode_imm_code .branchEqual,
    classifyFunction_eq_error_iff.2 (by decide), classifyOpcode_imm_code .loadWord, classifyFunction_code .subtractUnsigned⟩

/-- Settles O11: in each order of the tests the word goes to the path of its own code. For an arbitrary order, the case that answers
first answers the decode, since every case that answers does; and where none does, the decode is `UnknownOpcode`. -/
theorem decodeIsTheClassifiedDispatch : Obligations.DecodeIsTheClassifiedDispatch := by
  intro w
  refine ⟨?_, ?_, fun order hperm => ?_⟩
  · cases hc : classifyOpcode (opcode w) with
    | value k =>
      have hop := (classifyOpcode_eq_value.1 hc).symm
      cases k with
      | trigger => exact decode_of_opcode_zero hop
      | jumpClass j => exact decode_eq_jump.2 ⟨hop, rfl⟩
      | immClass t => exact decode_eq_immediate.2 ⟨hop, rfl, rfl, rfl⟩
    | error e => exact decode_eq_error_iff.2 (.inr (classifyOpcode_eq_error_iff.1 hc))
  · cases hl : lookupImmediate (opcode w) with
    | value t => exact decode_eq_immediate.2 ⟨(lookupImmediate_eq_value.1 hl).symm, rfl, rfl, rfl⟩
    | error e =>
      dsimp only
      split_ifs with h3 h2 h0
      · exact decode_eq_jump.2 ⟨h3, rfl⟩
      · exact decode_eq_jump.2 ⟨h2, rfl⟩
      · exact decode_of_opcode_zero h0
      · exact decode_eq_error_iff.2 (.inr ⟨⟨h0, h2, h3⟩, hl⟩)
  · cases hfind : order.findSome? (fun case => case w) with
    | some r =>
      obtain ⟨case, hmem, hanswer⟩ := List.exists_of_findSome?_eq_some hfind
      exact decode_eq_of_dispatchCase (hperm.mem_iff.1 hmem) hanswer
    | none =>
      have hnone := List.findSome?_eq_none_iff.1 hfind
      exact decode_of_no_dispatchCase fun case hmem => hnone case (hperm.mem_iff.2 hmem)

/-- Settles O52: the codes named are in the lists of R73 and R74; the three words are evaluated. -/
theorem conventionalSystemEncodingsAreErrors : Obligations.ConventionalSystemEncodingsAreErrors := by
  have hfunctions : [0x0C, 0x0D, 0x0F, 0x11, 0x13, 0x09] ⊆ unrecognisedFunctions := by decide
  have hopcodes : [0x10, 0x11, 0x12, 0x13, 0x01, 0x30, 0x38, 0x2F] ⊆ unrecognisedOpcodes := by decide
  exact ⟨fun _ hop hfc => decode_eq_unknownFunction_iff_mem.2 ⟨hop, hfunctions hfc⟩,
    fun _ hop => decode_eq_unknownOpcode_iff_mem.2 (hopcodes hop), by decide⟩

/-- Settles O53: each word has the named row's opcode and function code, and its operand fields are evaluated. -/
theorem sourceScenariosDecode : Obligations.SourceScenariosDecode := by
  and_intros
  · exact decodeInstr_eq_value_iff.2 (decode_eq_immediate.2 (by decide))
  · exact decodeInstr_eq_value_iff.2 (decode_eq_register.2 (by decide))
  · exact decodeInstr_eq_value_iff.2 (decode_eq_jump.2 (by decide))
  · exact decodeInstr_eq_value_iff.2 (decode_eq_immediate.2 (by decide))
  · decide
  · decide

end Sys2Proof
end

section
/-! The 37 rows and the word space (spec/30_encoding.md): a row's match and mask hold exactly on the words of its operation (R72),
and the number of words of each outcome (R77). -/

namespace Sys2Proof

open Sys2Proof.Stated

/-! ### The operation a word decodes to (R70, R71) -/

/-- The word decodes to some operands of the row's operation. -/
abbrev decodesToRow (o : Operation) (w : Word) : Prop := ∃ i, decode w = .value i ∧ i.operation = o

theorem decodesToRow_funct_iff {f : FunctTag} {w : Word} :
    decodesToRow (.funct f) w ↔ opcode w = 0x00 ∧ functionCode w = f.code := by
  constructor
  · rintro ⟨i, h, hi⟩
    cases i <;> cases hi
    obtain ⟨hop, hfc, -⟩ := decode_eq_register.1 h
    exact ⟨hop, hfc⟩
  · rintro ⟨hop, hfc⟩
    exact ⟨_, decode_eq_register.2 ⟨hop, hfc, rfl, rfl, rfl, rfl⟩, rfl⟩

theorem decodesToRow_jump_iff {j : JumpTag} {w : Word} : decodesToRow (.jump j) w ↔ opcode w = j.code := by
  constructor
  · rintro ⟨i, h, hi⟩
    cases i <;> cases hi
    exact (decode_eq_jump.1 h).1
  · intro hop
    exact ⟨_, decode_eq_jump.2 ⟨hop, rfl⟩, rfl⟩

theorem decodesToRow_imm_iff {t : ImmTag} {w : Word} : decodesToRow (.imm t) w ↔ opcode w = t.code := by
  constructor
  · rintro ⟨i, h, hi⟩
    cases i <;> cases hi
    exact (decode_eq_immediate.1 h).1
  · intro hop
    exact ⟨_, decode_eq_immediate.2 ⟨hop, rfl, rfl, rfl⟩, rfl⟩

/-! ### Match and mask (R72) -/

theorem Operation.matchBits_funct (f : FunctTag) : (Operation.funct f).matchBits = f.code.setWidth 32 := by
  cases f <;> rfl

theorem Operation.matchBits_jump (j : JumpTag) : (Operation.jump j).matchBits = j.code ++ (0 : BitVec 26) := by
  cases j <;> rfl

theorem Operation.matchBits_imm (t : ImmTag) : (Operation.imm t).matchBits = t.code ++ (0 : BitVec 26) := by
  cases t <;> rfl

/-- The bits under the mask are the codes that select the operation. -/
theorem and_mask_eq_matchBits_iff {o : Operation} {w : Word} : w &&& o.mask = o.matchBits ↔ decodesToRow o w := by
  cases o with
  | funct f => rw [Operation.matchBits_funct, decodesToRow_funct_iff]; exact and_registerMask w f.code
  | jump j => rw [Operation.matchBits_jump, decodesToRow_jump_iff]; exact and_opcodeMask w j.code
  | imm t => rw [Operation.matchBits_imm, decodesToRow_imm_iff]; exact and_opcodeMask w t.code

/-- One word decodes to one operation. -/
theorem decodesToRow_unique {o p : Operation} {w : Word} (ho : decodesToRow o w) (hp : decodesToRow p w) : o = p := by
  obtain ⟨i, hi, rfl⟩ := ho
  obtain ⟨j, hj, rfl⟩ := hp
  rw [hi] at hj
  cases hj
  rfl

theorem Operation.mem_all (o : Operation) : o ∈ Operation.all := by
  rcases o with f | j | t
  · cases f <;> decide
  · cases j <;> decide
  · cases t <;> decide

/-- A word is an error exactly when it is the word of no row. -/
theorem decode_isError_iff {w : Word} : (∃ e, decode w = .error e) ↔ ∀ o, ¬ decodesToRow o w := by
  constructor
  · rintro ⟨e, he⟩ o ⟨i, hi, -⟩
    rw [he] at hi
    cases hi
  · intro h
    cases hd : decode w with
    | value i => exact absurd ⟨i, hd, rfl⟩ (h i.operation)
    | error e => exact ⟨e, rfl⟩

/-! ### The words with given codes (R77) -/

/-- A word as its opcode, its twenty middle bits and its function code. -/
def wordParts : Word ≃ Code × BitVec 20 × Code where
  toFun w := (opcode w, w.extractLsb' 6 20, functionCode w)
  invFun p := p.1 ++ p.2.1 ++ p.2.2
  left_inv w := by
    apply BitVec.eq_of_toNat_eq
    rw [toNat_append_eq_add, toNat_append_eq_add, opcode_toNat_eq_div, BitVec.extractLsb'_toNat,
      Nat.shiftRight_eq_div_pow, functionCode_toNat]
    omega
  right_inv := by
    rintro ⟨op, middle, fc⟩
    have hword : (op ++ middle ++ fc).toNat = (op.toNat * 2 ^ 20 + middle.toNat) * 2 ^ 6 + fc.toNat := by
      rw [toNat_append_eq_add, toNat_append_eq_add]
    refine Prod.ext ?_ (Prod.ext ?_ ?_) <;> apply BitVec.eq_of_toNat_eq <;> dsimp only
    · rw [opcode_toNat_eq_div, hword]
      omega
    · rw [BitVec.extractLsb'_toNat, Nat.shiftRight_eq_div_pow, hword]
      omega
    · rw [functionCode_toNat, hword]
      omega

/-- The words whose codes lie in two given sets: the middle bits are free. -/
theorem card_words_of_codes {P : Word → Prop} (ops fcs : Finset Code)
    (hP : ∀ w, P w ↔ opcode w ∈ ops ∧ functionCode w ∈ fcs) :
    Nat.card (Subtype P) = ops.card * (2 ^ 20 * fcs.card) := by
  have hparts : Subtype P ≃ {p : Code × BitVec 20 × Code // p.1 ∈ ops ∧ p.2.2 ∈ fcs} := wordParts.subtypeEquiv hP
  have hmiddle : (Finset.univ : Finset (BitVec 20)).card = 2 ^ 20 := by
    rw [Finset.card_univ, ← FinEnum.card_eq_fintypeCard, FinEnum.card_bitVec]
  rw [Nat.card_congr hparts, Nat.subtype_card (ops ×ˢ Finset.univ ×ˢ fcs) (by simp), Finset.card_product,
    Finset.card_product, hmiddle]

/-- With opcode 0 and a function code of the list: the twenty operand bits are free. -/
theorem card_words_of_function {P : Word → Prop} (l : List Code) (hl : l.Nodup)
    (hP : ∀ w, P w ↔ opcode w = 0x00 ∧ functionCode w ∈ l) : Nat.card (Subtype P) = l.length * 2 ^ 20 := by
  rw [card_words_of_codes {0x00} l.toFinset fun w => by simp [hP w], List.toFinset_card_of_nodup hl, Finset.card_singleton,
    one_mul, mul_comm]

/-- With an opcode of the list: all twenty-six other bits are free. -/
theorem card_words_of_opcode {P : Word → Prop} (l : List Code) (hl : l.Nodup) (hP : ∀ w, P w ↔ opcode w ∈ l) :
    Nat.card (Subtype P) = l.length * 2 ^ 26 := by
  have hcodes : (Finset.univ : Finset Code).card = 2 ^ 6 := by
    rw [Finset.card_univ, ← FinEnum.card_eq_fintypeCard, FinEnum.card_bitVec]
  rw [card_words_of_codes l.toFinset Finset.univ fun w => by simp [hP w], List.toFinset_card_of_nodup hl, hcodes, ← pow_add]

/-! ### The five outcome classes (R134) -/

theorem outcomeClass_eq_registerForm_iff {r : DecodeResult} :
    DecodeResult.outcomeClass r = .registerForm ↔ ∃ f rs rt rd shamt, r = .value (.register f rs rt rd shamt) := by
  rcases r with (_ | _ | _) | (_ | _) <;> simp [DecodeResult.outcomeClass]

theorem outcomeClass_eq_jumpForm_iff {r : DecodeResult} :
    DecodeResult.outcomeClass r = .jumpForm ↔ ∃ j target, r = .value (.jump j target) := by
  rcases r with (_ | _ | _) | (_ | _) <;> simp [DecodeResult.outcomeClass]

theorem outcomeClass_eq_immediateForm_iff {r : DecodeResult} :
    DecodeResult.outcomeClass r = .immediateForm ↔ ∃ t rs rt imm, r = .value (.immediate t rs rt imm) := by
  rcases r with (_ | _ | _) | (_ | _) <;> simp [DecodeResult.outcomeClass]

theorem outcomeClass_eq_unknownFunction_iff {r : DecodeResult} :
    DecodeResult.outcomeClass r = .unknownFunction ↔ r = .error .unknownFunction := by
  rcases r with (_ | _ | _) | (_ | _) <;> simp [DecodeResult.outcomeClass]

theorem outcomeClass_eq_unknownOpcode_iff {r : DecodeResult} :
    DecodeResult.outcomeClass r = .unknownOpcode ↔ r = .error .unknownOpcode := by
  rcases r with (_ | _ | _) | (_ | _) <;> simp [DecodeResult.outcomeClass]

/-! ### The statements -/

/-- Settles O34: under a mask stands exactly what selects the row, so each clause is one about the operation a word decodes to. -/
theorem matchAndMaskSelectTheRow : Obligations.MatchAndMaskSelectTheRow := by
  refine ⟨fun _ _ => and_mask_eq_matchBits_iff, fun o p w ho hp => ?_, fun w => ?_, rfl, by decide, Operation.mem_all⟩
  · exact decodesToRow_unique (and_mask_eq_matchBits_iff.1 ho) (and_mask_eq_matchBits_iff.1 hp)
  · rw [decode_isError_iff]
    constructor
    · intro h o _ hmask
      exact h o (and_mask_eq_matchBits_iff.1 hmask)
    · intro h o hrow
      exact h o o.mem_all (and_mask_eq_matchBits_iff.2 hrow)

/-- Settles O35: each outcome is a list of codes (R134), and what the codes leave free is counted. -/
theorem wordSpaceCounts : Obligations.WordSpaceCounts :=
  ⟨card_words_of_function recognisedFunctions (by decide) fun _ =>
      outcomeClass_eq_registerForm_iff.trans decode_isRegister_iff,
    card_words_of_function unrecognisedFunctions (by decide) fun _ =>
      outcomeClass_eq_unknownFunction_iff.trans decode_eq_unknownFunction_iff_mem,
    card_words_of_opcode [0x02, 0x03] (by decide) fun _ =>
      (outcomeClass_eq_jumpForm_iff.trans decode_isJump_iff).trans List.mem_pair.symm,
    card_words_of_opcode immediateOpcodes (by decide) fun _ =>
      outcomeClass_eq_immediateForm_iff.trans decode_isImmediate_iff,
    card_words_of_opcode unrecognisedOpcodes (by decide) fun _ =>
      outcomeClass_eq_unknownOpcode_iff.trans decode_eq_unknownOpcode_iff_mem⟩

end Sys2Proof
end

section
/-! The ten ports (spec/42_instruction_builder.md): which result each value of `status` and `form` stands for (R140, R141), the
ports of a decode as functions of the word (R142 to R146), and that a legal result is read back from them (R147). -/

namespace Sys2Proof.Machine

open Sys2Proof.Stated

/-! ### What `status` and `form` say of the result (R140, R141) -/

theorem Ports.ofResult_status_eq_one_iff {r : DecodeResult} :
    (Ports.ofResult r).status = 1 ↔ r = .error .unknownOpcode := by
  rcases r with (_ | _ | _) | (_ | _) <;> simp [Ports.ofResult, statusPort, errorStatus]

theorem Ports.ofResult_status_eq_two_iff {r : DecodeResult} :
    (Ports.ofResult r).status = 2 ↔ r = .error .unknownFunction := by
  rcases r with (_ | _ | _) | (_ | _) <;> simp [Ports.ofResult, statusPort, errorStatus]

theorem Ports.ofResult_form_eq_one_iff {r : DecodeResult} :
    (Ports.ofResult r).form = 1 ↔ ∃ f rs rt rd shamt, r = .value (.register f rs rt rd shamt) := by
  rcases r with (_ | _ | _) | (_ | _) <;> simp [Ports.ofResult, formPort]

theorem Ports.ofResult_form_eq_two_iff {r : DecodeResult} :
    (Ports.ofResult r).form = 2 ↔ ∃ j target, r = .value (.jump j target) := by
  rcases r with (_ | _ | _) | (_ | _) <;> simp [Ports.ofResult, formPort]

theorem Ports.ofResult_form_eq_three_iff {r : DecodeResult} :
    (Ports.ofResult r).form = 3 ↔ ∃ t rs rt imm, r = .value (.immediate t rs rt imm) := by
  rcases r with (_ | _ | _) | (_ | _) <;> simp [Ports.ofResult, formPort]

theorem Ports.ofResult_error (e : DecodeError) : Ports.ofResult (.error e) = errorPorts (errorStatus e) := rfl

/-- Of a failing word the ports carry the error alone (R147, R240). -/
theorem Ports.ofResult_decode_of_error {w : Word} {e : DecodeError} (h : decode w = .error e) :
    Ports.ofResult (decode w) = errorPorts (errorStatus e) := by
  rw [h, Ports.ofResult_error]

/-! ### The tag and field ports of a decode (R142 to R146) -/

/-- Each tag and field port has the word's bits in the forms that carry it, and is 0 in the others. -/
structure Ports.carries (p : Ports) (w : Word) : Prop where
  opTag : p.opTag = if p.status = 0 then opcode w else 0
  functTag : p.functTag = if p.form = 1 then functionCode w else 0
  rs : p.rs = if p.form = 1 ∨ p.form = 3 then sourceRegister w else 0
  rt : p.rt = if p.form = 1 ∨ p.form = 3 then targetRegister w else 0
  rd : p.rd = if p.form = 1 then destinationRegister w else 0
  shamt : p.shamt = if p.form = 1 then shiftAmount w else 0
  imm : p.imm = if p.form = 3 then immediateBits w else 0
  target : p.target = if p.form = 2 then targetAddress w else 0

theorem registerPorts_carries {w : Word} (hop : opcode w = 0x00) :
    (registerPorts (functionCode w) (sourceRegister w) (targetRegister w) (destinationRegister w) (shiftAmount w)).carries w := by
  constructor <;> simp [registerPorts, hop]

theorem jumpPorts_carries (w : Word) : (jumpPorts (opcode w) (targetAddress w)).carries w := by
  constructor <;> simp [jumpPorts]

theorem immediatePorts_carries (w : Word) :
    (immediatePorts (opcode w) (sourceRegister w) (targetRegister w) (immediateBits w)).carries w := by
  constructor <;> simp [immediatePorts]

theorem errorPorts_carries (e : DecodeError) (w : Word) : (errorPorts (errorStatus e)).carries w := by
  cases e <;> constructor <;> simp [errorPorts, errorStatus]

theorem Ports.ofResult_decode_carries (w : Word) : (Ports.ofResult (decode w)).carries w := by
  cases hd : decode w with
  | error e => exact errorPorts_carries e w
  | value i =>
    cases i with
    | register f rs rt rd shamt =>
      obtain ⟨hop, hfc, rfl, rfl, rfl, rfl⟩ := decode_eq_register.1 hd
      rw [ofResult_register, ← hfc]
      exact registerPorts_carries hop
    | jump j target =>
      obtain ⟨hop, rfl⟩ := decode_eq_jump.1 hd
      rw [ofResult_jump, ← hop]
      exact jumpPorts_carries w
    | immediate t rs rt imm =>
      obtain ⟨hop, rfl, rfl, rfl⟩ := decode_eq_immediate.1 hd
      rw [ofResult_immediate, ← hop, ofInt_immediate]
      exact immediatePorts_carries w

/-! ### Reading a result back from its ports (R147) -/

theorem registerPorts_readBack (f : FunctTag) (rs rt rd : RegIndex) (shamt : ShiftAmount) :
    (registerPorts f.code rs rt rd shamt).readBack = some (.value (.register f rs rt rd shamt)) := by
  simp [Ports.readBack, registerPorts, classifyFunction_code]

theorem jumpPorts_readBack (j : JumpTag) (target : Word) :
    (jumpPorts j.code target).readBack = some (.value (.jump j target)) := by
  simp [Ports.readBack, jumpPorts, classifyOpcode_jump_code]

theorem immediatePorts_readBack (t : ImmTag) (rs rt : RegIndex) (pattern : BitVec 16) :
    (immediatePorts t.code rs rt pattern).readBack = some (.value (.immediate t rs rt pattern.toInt)) := by
  simp [Ports.readBack, immediatePorts, classifyOpcode_imm_code]

theorem errorPorts_readBack (e : DecodeError) : (errorPorts (errorStatus e)).readBack = some (.error e) := by
  cases e <;> rfl

/-- Reading back inverts the ports on every legal result; of an immediate, it is the integer of the pattern (R66). -/
theorem Ports.readBack_ofResult {r : DecodeResult} (h : DecodeResult.legal r = true) :
    (Ports.ofResult r).readBack = some r := by
  cases r with
  | error e => exact errorPorts_readBack e
  | value i =>
    cases i with
    | register f rs rt rd shamt => exact registerPorts_readBack f rs rt rd shamt
    | jump j target => exact jumpPorts_readBack j target
    | immediate t rs rt imm =>
      rw [ofResult_immediate, immediatePorts_readBack, toInt_ofInt_of_immInRange h]

/-- The port `target` has bits 31 to 26 zero, in the forms that do not carry it as well (R146). -/
theorem Ports.ofResult_target_lt {r : DecodeResult} (h : DecodeResult.legal r = true) :
    (Ports.ofResult r).target.toNat < 2 ^ 26 := by
  rcases r with (_ | ⟨j, target⟩ | _) | e
  · exact Nat.two_pow_pos 26
  · exact of_decide_eq_true h
  · exact Nat.two_pow_pos 26
  · exact Nat.two_pow_pos 26

/-- The ports of a legal result are values the block can drive (U6). -/
theorem Ports.ofResult_drivable {r : DecodeResult} (h : DecodeResult.legal r = true) : (Ports.ofResult r).drivable :=
  ⟨Ports.ofResult_status_ne_three r, Ports.ofResult_form_eq_zero r,
    Option.ne_none_iff_exists'.2 ⟨r, Ports.readBack_ofResult h⟩, Ports.ofResult_target_lt h⟩

end Sys2Proof.Machine

namespace Sys2Proof

open Sys2Proof.Machine

/-! ### The statements -/

/-- Settles O36: `status` and `form` name the outcome, which R134 gives by the codes; the other ports carry the word's bits. -/
theorem portsInTermsOfTheWord : Obligations.PortsInTermsOfTheWord := by
  intro w p
  obtain ⟨hopTag, hfunctTag, hrs, hrt, hrd, hshamt, himm, htarget⟩ := Ports.ofResult_decode_carries w
  exact ⟨Ports.ofResult_status_eq_one_iff.trans decode_eq_unknownOpcode_iff_mem,
    Ports.ofResult_status_eq_two_iff.trans decode_eq_unknownFunction_iff_mem,
    Ports.ofResult_status_ne_three _, Ports.ofResult_form_eq_zero _,
    Ports.ofResult_form_eq_one_iff.trans decode_isRegister_iff, Ports.ofResult_form_eq_two_iff.trans decode_isJump_iff,
    Ports.ofResult_form_eq_three_iff.trans decode_isImmediate_iff,
    hopTag, hfunctTag, hrs, hrt, hrd, hshamt, himm, htarget⟩

/-- Settles O37: a result is read back from its ports, so equal ports come from equal results; every decode is legal. -/
theorem portsReadBackTheResult : Obligations.PortsReadBackTheResult := by
  refine ⟨fun _ => Ports.readBack_ofResult, fun r q hr hq hports => ?_, fun w => ?_⟩
  · have hread := Ports.readBack_ofResult hr
    rw [hports, Ports.readBack_ofResult hq] at hread
    exact (Option.some.inj hread).symm
  · exact ⟨Ports.readBack_ofResult (legal_decode w), Ports.ofResult_drivable (legal_decode w)⟩

/-- Settles O54: sign extension keeps the value of the pattern, and the pattern on the port is that of the immediate. -/
theorem wideningKeepsTheImmediate : Obligations.WideningKeepsTheImmediate := by
  have hwiden (w : Word) : ((BitVec.ofInt 16 (immediate w)).signExtend 32).toInt = immediate w := by
    rw [BitVec.toInt_signExtend_of_le (by decide), ofInt_immediate, immediate]
  refine ⟨hwiden, fun w t rs rt imm h => ?_⟩
  obtain ⟨-, -, -, rfl⟩ := decode_eq_immediate.1 h
  rw [h]
  exact hwiden w

/-- Settles O55: the ports of an error are a function of the error alone. -/
theorem errorsDriveOnlyTheirStatus : Obligations.ErrorsDriveOnlyTheirStatus :=
  ⟨fun _ _ hw hv => ⟨Ports.ofResult_decode_of_error hw, congrArg Ports.ofResult (hv.trans hw.symm)⟩,
    fun _ _ hw hv => ⟨Ports.ofResult_decode_of_error hw, congrArg Ports.ofResult (hv.trans hw.symm)⟩⟩

end Sys2Proof
end

section
/-! What each instruction answers (spec/43_register_ops.md to spec/46_immediate_load_store_ops.md): the whole next state of every
operation of a form, proved once for the form, and the five statements that list the operations. -/

namespace Sys2Proof.Machine

open Sys2Proof.Stated

/-! ### The whole next state, form by form (R160, R190, R200) -/

/-- Answering leaves the word and the pending words, and drives the ports of the result. -/
theorem exec_eq_answered (i : Instr) (s : State) :
    exec i s = .next (answered s (Ports.ofResult (.value i.toInstruction)) (.value i.toInstruction)) := exec_eq i s

theorem exec_of_register {i : Instr} (f : FunctTag) {rs rt rd : RegIndex} {shamt : ShiftAmount}
    (h : i.toInstruction = .register f rs rt rd shamt) (s : State) :
    exec i s = .next (answered s (registerPorts f.code rs rt rd shamt) (.value (.register f rs rt rd shamt))) := by
  rw [exec_eq_answered, h, ofResult_register]

theorem exec_of_jump {i : Instr} (j : JumpTag) {target : Word} (h : i.toInstruction = .jump j target) (s : State) :
    exec i s = .next (answered s (jumpPorts j.code target) (.value (.jump j target))) := by
  rw [exec_eq_answered, h, ofResult_jump]

theorem exec_of_immediate {i : Instr} (t : ImmTag) {rs rt : RegIndex} {imm : Int}
    (h : i.toInstruction = .immediate t rs rt imm) (s : State) :
    exec i s =
      .next (answered s (immediatePorts t.code rs rt (BitVec.ofInt 16 imm)) (.value (.immediate t rs rt imm))) := by
  rw [exec_eq_answered, h, ofResult_immediate]

end Sys2Proof.Machine

namespace Sys2Proof

open Sys2Proof.Machine

/-! ### The statements -/

/-- Settles O38: each operation is the Register form of its tag. -/
theorem shiftMoveAndMultiplyOpsDeliver : Obligations.ShiftMoveAndMultiplyOpsDeliver := fun s _ _ _ _ =>
  ⟨exec_of_register .shiftLeftLogical rfl s, exec_of_register .shiftRightLogical rfl s,
    exec_of_register .shiftRightArithmetic rfl s, exec_of_register .jumpRegister rfl s, exec_of_register .moveFromHi rfl s,
    exec_of_register .moveFromLo rfl s, exec_of_register .multiply rfl s, exec_of_register .multiplyUnsigned rfl s,
    exec_of_register .divide rfl s, exec_of_register .divideUnsigned rfl s⟩

/-- Settles O39: each operation is the Register form of its tag. -/
theorem arithmeticAndLogicOpsDeliver : Obligations.ArithmeticAndLogicOpsDeliver := fun s _ _ _ _ =>
  ⟨exec_of_register .add rfl s, exec_of_register .addUnsigned rfl s, exec_of_register .subtract rfl s,
    exec_of_register .subtractUnsigned rfl s, exec_of_register .and rfl s, exec_of_register .or rfl s,
    exec_of_register .xor rfl s, exec_of_register .nor rfl s, exec_of_register .setLessThan rfl s,
    exec_of_register .setLessThanUnsigned rfl s⟩

/-- Settles O40: each jump is the Jump form of its tag. -/
theorem jumpOpsDeliver : Obligations.JumpOpsDeliver := fun s _ =>
  ⟨exec_of_jump .jump rfl s, exec_of_jump .jumpAndLink rfl s⟩

/-- Settles O41: each operation is the Immediate form of its tag. -/
theorem branchAndImmediateOpsDeliver : Obligations.BranchAndImmediateOpsDeliver := fun s _ _ _ =>
  ⟨exec_of_immediate .branchEqual rfl s, exec_of_immediate .branchNotEqual rfl s, exec_of_immediate .addImmediate rfl s,
    exec_of_immediate .addImmediateUnsigned rfl s, exec_of_immediate .setLessThanImmediate rfl s,
    exec_of_immediate .setLessThanImmediateUnsigned rfl s, exec_of_immediate .andImmediate rfl s,
    exec_of_immediate .orImmediate rfl s, exec_of_immediate .loadUpperImmediate rfl s⟩

/-- Settles O42: each load or store is the Immediate form of its tag. -/
theorem loadStoreOpsDeliver : Obligations.LoadStoreOpsDeliver := fun s _ _ _ =>
  ⟨exec_of_immediate .loadWord rfl s, exec_of_immediate .loadByteUnsigned rfl s,
    exec_of_immediate .loadHalfwordUnsigned rfl s, exec_of_immediate .storeByte rfl s,
    exec_of_immediate .storeHalfword rfl s, exec_of_immediate .storeWord rfl s⟩

end Sys2Proof
end

section
/-! Steps, runs and copies (spec/70_reset_and_hazards.md, spec/00_scope.md section 7): the state after a step, that a step keeps a
state safe (R148), what a run returns (R276, R281), that an error stops nothing (R244, R248), and that copies do not meet (R46). -/

namespace Sys2Proof.Machine

/-! ### The state after a step -/

/-- The state after a step (`step_eq_successor`): the next word, or the held one, has been answered with its decode. -/
def State.successor (s : State) : State := s.presentNext.answer (decode s.presentNext.word)

theorem step_eq_successor (s : State) : step s = .next s.successor := step_eq s

theorem State.successor_word (s : State) : s.successor.word = s.pending.headD s.word := s.presentNext_word

theorem State.successor_pending (s : State) : s.successor.pending = s.pending.tail := s.presentNext_pending

theorem State.successor_out (s : State) :
    s.successor.out = Ports.ofResult (decode (s.pending.headD s.word)) := by
  rw [State.successor, State.answer_out, State.presentNext_word]

theorem State.successor_returned (s : State) :
    s.successor.returned = s.returned ++ [decode (s.pending.headD s.word)] := by
  rw [State.successor, State.answer_returned, State.presentNext_returned, State.presentNext_word]

/-- What is new in the state after a step depends on the presented word alone (R19). -/
theorem State.successor_congr {s t : State} (h : s.pending.headD s.word = t.pending.headD t.word) :
    s.successor.out = t.successor.out ∧ s.successor.word = t.successor.word ∧
      ∃ r, s.successor.returned = s.returned ++ [r] ∧ t.successor.returned = t.returned ++ [r] := by
  refine ⟨?_, ?_, _, s.successor_returned, ?_⟩
  · rw [State.successor_out, State.successor_out, h]
  · rw [State.successor_word, State.successor_word, h]
  · rw [State.successor_returned, h]

theorem State.eq_of_fields {s t : State} (hword : s.word = t.word) (hpending : s.pending = t.pending) (hout : s.out = t.out)
    (hreturned : s.returned = t.returned) : s = t := by
  cases s
  cases t
  simp_all

/-! ### The invariant (R148, U6, R29) -/

/-- A step drives the decode of the word it puts on the port (R148). -/
theorem State.successor_settled (s : State) : s.successor.settled := by
  rw [State.settled, State.successor_out, State.successor_word]

/-- A step pairs its result with the word it puts on the port (R279). -/
theorem State.successor_paired (s : State) : s.successor.paired := by
  intro r h
  rw [State.successor_returned, List.getLast?_concat] at h
  rw [State.successor_word]
  exact (Option.some.inj h).symm

theorem State.successor_resultsLegal {s : State} (h : s.resultsLegal) : s.successor.resultsLegal := by
  intro r hr
  rw [State.successor_returned, List.mem_append, List.mem_singleton] at hr
  rcases hr with hold | rfl
  · exact h r hold
  · exact legal_decode _

/-- Whatever a state drives and pairs, its successor is safe as soon as the results it holds are legal. -/
theorem State.successor_safe {s : State} (h : s.resultsLegal) : s.successor.safe where
  settled := s.successor_settled
  drivable := s.successor_out ▸ Ports.ofResult_drivable (legal_decode _)
  paired := s.successor_paired
  resultsLegal := State.successor_resultsLegal h

/-! ### Runs (R281, R276) -/

theorem core_run_succ_successor (k : Nat) (s : State) :
    Host.Core.run Sys2Proof.core (k + 1) s = Host.Core.run Sys2Proof.core k s.successor := core_run_succ k s

theorem core_run_completes (k : Nat) (s : State) :
    ∃ t, Host.Core.run Sys2Proof.core k s = .next t ∧ t.returned.length = s.returned.length + k := by
  induction k generalizing s with
  | zero => exact ⟨s, rfl, rfl⟩
  | succ k ih =>
    obtain ⟨t, hrun, hlength⟩ := ih s.successor
    rw [State.successor_returned, List.length_append, List.length_singleton] at hlength
    exact ⟨t, (core_run_succ_successor k s).trans hrun, by omega⟩

/-- A stream of words is answered word by word; from a settled state the ports at its end are settled, the empty stream included. -/
theorem core_run_stream (ws vs : List Word) (s : State) (h : s.pending = ws ++ vs) :
    ∃ t, Host.Core.run Sys2Proof.core ws.length s = .next t ∧ t.pending = vs ∧
      t.returned = s.returned ++ ws.map decode ∧ t.word = ws.getLastD s.word ∧ (ws ≠ [] ∨ s.settled → t.settled) := by
  induction ws generalizing s with
  | nil => exact ⟨s, rfl, h, (List.append_nil _).symm, rfl, fun hs => hs.resolve_left (· rfl)⟩
  | cons w ws ih =>
    obtain ⟨t, hrun, hpending, hreturned, hword, hsettled⟩ := ih s.successor (by rw [State.successor_pending, h]; rfl)
    refine ⟨t, (core_run_succ_successor ws.length s).trans hrun, hpending, ?_, ?_, ?_⟩
    · rw [hreturned, State.successor_returned, h, List.append_assoc]
      rfl
    · rw [hword, State.successor_word, h, List.getLastD_cons]
      rfl
    · exact fun _ => hsettled (.inr s.successor_settled)

/-! ### The word that a step evaluates (notes/assumptions/3.md) -/

theorem evaluate_of_decodeInstr {s : State} {i : Instr} (h : decodeInstr s.word = .value i) : evaluate s = exec i s := by
  rw [evaluate, h]

theorem State.successor_presentWord (s : State) (w : Word) :
    (s.presentWord w).successor = State.answer (decode w) { s with word := w } := rfl

theorem State.withFetchWord_toNat (s : State) (w : Word) : s.withFetchWord 32 w.toNat = s.presentWord w := by
  rw [State.withFetchWord, tableWord, Nat.mod_eq_of_lt w.isLt, BitVec.ofNat_toNat, BitVec.setWidth_eq]

/-! ### Copies (R46, D14) -/

theorem Copies.stepAt_eq_successor {n : Nat} (k : Fin n) (c : Copies n) :
    Copies.stepAt k c = .next (c.set k (c.get k).successor) := Copies.stepAt_eq k c

theorem Copies.run_cons {n : Nat} (k : Fin n) (ks : List (Fin n)) (c : Copies n) :
    Copies.run (k :: ks) c = Copies.run ks (c.set k (c.get k).successor) := by
  rw [Copies.run, Copies.stepAt_eq_successor]

theorem Copies.get_set_same {n : Nat} (c : Copies n) (k : Fin n) (s : State) : Vector.get (c.set k s) k = s := by
  rw [Vector.get_eq_getElem, Vector.getElem_set_self]

theorem Copies.get_set_other {n : Nat} (c : Copies n) {k j : Fin n} (h : k ≠ j) (s : State) :
    Vector.get (c.set k s) j = c.get j := by
  rw [Vector.get_eq_getElem, Vector.getElem_set_ne _ _ (Fin.val_ne_of_ne h), ← Vector.get_eq_getElem]

/-- A step of copy `k` advances the run of copy `k` alone by one, and leaves that of every other copy. -/
theorem Copies.run_eq_runs {n : Nat} (order : List (Fin n)) (c : Copies n) :
    ∃ d, Copies.run order c = .next d ∧
      ∀ k : Fin n, Host.Core.run Sys2Proof.core (order.count k) (c.get k) = .next (d.get k) := by
  induction order generalizing c with
  | nil => exact ⟨c, rfl, fun _ => rfl⟩
  | cons j order ih =>
    obtain ⟨d, hrun, heach⟩ := ih (c.set j (c.get j).successor)
    refine ⟨d, (Copies.run_cons j order c).trans hrun, fun k => ?_⟩
    have hk := heach k
    by_cases hjk : j = k
    · subst hjk
      rw [Copies.get_set_same] at hk
      rw [List.count_cons_self, core_run_succ_successor, hk]
    · rw [Copies.get_set_other c hjk] at hk
      rw [List.count_cons_of_ne hjk, hk]

end Sys2Proof.Machine

namespace Sys2Proof

open Sys2Proof.Machine

/-! ### The statements -/

/-- Settles O48: the state after a step is safe because its outputs and its last result are the decode of the word it put on the
port, and that decode is legal. -/
theorem stepKeepsSafe : Obligations.StepKeepsSafe := by
  intro s t hs h
  obtain rfl := step_next h
  exact State.successor_safe hs.resultsLegal

/-- Settles O47: the reset outputs are the decode of the all-zero word, and no result has been returned. -/
theorem safeAtReset : Obligations.SafeAtReset := by
  have hsettled : State.reset.settled := by unfold State.settled; decide
  refine ⟨⟨hsettled, ?_, nofun, nofun⟩, rfl, rfl, hsettled⟩
  rw [hsettled]
  exact Ports.ofResult_drivable (legal_decode _)

/-- Settles O45: the four fields of the state after a step. -/
theorem stepReturnsTheDecodeOfTheWord : Obligations.StepReturnsTheDecodeOfTheWord := fun s =>
  (step_eq_successor s).trans
    (congrArg Host.Outcome.next
      (State.eq_of_fields s.successor_word s.successor_pending s.successor_out s.successor_returned))

/-- Settles O46: every step has a next state, and each adds one result. -/
theorem everyRunCompletes : Obligations.EveryRunCompletes :=
  ⟨fun s => ⟨s.successor, step_eq_successor s⟩, core_run_completes⟩

/-- Settles O50, by induction on the stream. -/
theorem streamReturnsEachWordsDecode : Obligations.StreamReturnsEachWordsDecode := by
  intro ws vs s h
  obtain ⟨t, hrun, hpending, hreturned, hword, hsettled⟩ := core_run_stream ws vs s h
  exact ⟨t, hrun, hpending, hreturned, hword, fun hne => hsettled (.inl hne)⟩

/-- Settles O51, by induction on the schedule. -/
theorem copiesDoNotInterfere : Obligations.CopiesDoNotInterfere := fun _ => Copies.run_eq_runs

/-- Settles O49: the state after a step has its ports, its word and its result from the word presented alone. -/
theorem nothingIsCarriedBetweenEvaluations : Obligations.NothingIsCarriedBetweenEvaluations := by
  constructor
  · intro s t s' t' h hs ht
    obtain rfl := step_next hs
    obtain rfl := step_next ht
    exact State.successor_congr h
  · intro m n j k c c' d d' h hc hd
    obtain rfl := Host.Outcome.next.inj ((Copies.stepAt_eq_successor j c).symm.trans hc)
    obtain rfl := Host.Outcome.next.inj ((Copies.stepAt_eq_successor k d).symm.trans hd)
    rw [Copies.get_set_same, Copies.get_set_same]
    obtain ⟨hout, -, hreturned⟩ := State.successor_congr h
    exact ⟨hout, hreturned⟩

/-- Settles O27: the error is the one new result and its ports are `errorPorts`; a step from there answers the next word. -/
theorem errorIsAnsweredAndNeverSoftened : Obligations.ErrorIsAnsweredAndNeverSoftened := by
  intro s e he
  have hout : s.successor.out = Stated.errorPorts (errorStatus e) :=
    s.successor_out.trans (Ports.ofResult_decode_of_error he)
  have hreturned : s.successor.returned = s.returned ++ [.error e] := by rw [State.successor_returned, he]
  refine ⟨s.successor, step_eq_successor s, hreturned, fun i hi => ?_, s.successor_pending, s.successor_word, ?_⟩
  · rw [hreturned, List.mem_append, List.mem_singleton] at hi
    exact hi.resolve_right nofun
  · rw [hout]
    refine ⟨by cases e <;> rfl, rfl, rfl, rfl, rfl, rfl, rfl, rfl, rfl, rfl, fun w rest hnext => ?_⟩
    exact ⟨s.successor.successor, step_eq_successor _, by rw [State.successor_returned, hnext]; rfl⟩

/-- Settles O28: it is the stream of the three words, and the last of them is the failing one. -/
theorem errorsDoNotStick : Obligations.ErrorsDoNotStick := by
  intro s bad good rest e i hpending hbad hgood
  obtain ⟨t, hrun, hrest, hreturned, hword, hsettled⟩ := core_run_stream [bad, good, bad] rest s hpending
  have hout : t.out = Stated.errorPorts (errorStatus e) := by
    rw [hsettled (.inl (List.cons_ne_nil _ _)), hword, List.getLastD_cons, List.getLastD_cons, List.getLastD_cons,
      List.getLastD_nil, Ports.ofResult_decode_of_error hbad]
  refine hrun.trans (congrArg Host.Outcome.next (State.eq_of_fields hword hrest (hout.trans ?_) (hreturned.trans ?_)))
  · cases e <;> rfl
  · rw [List.map_cons, List.map_cons, List.map_singleton, hbad, hgood]

/-- Settles O43: the two words decode to the same operands under their own tags, and only `op_tag` depends on the tag. -/
theorem loadsAndStoresDifferInTheTagOnly : Obligations.LoadsAndStoresDifferInTheTagOnly := by
  intro s w v t u rs rt imm hlow hw hv
  have hdecode := decode_immediate_congr hlow hw hv
  refine ⟨_, _, step_eq_successor _, step_eq_successor _, ?_⟩
  rw [State.successor_presentWord, State.successor_presentWord, hw, hdecode]
  exact ⟨rfl, rfl, rfl, rfl⟩

/-- Settles O44: a step is an evaluation of the presented word, which runs the instruction the word decodes to. -/
theorem stepRunsTheDecodedInstruction : Obligations.StepRunsTheDecodedInstruction := by
  refine ⟨fun s w rest i hpending h => ?_, fun s i hpending h => ?_, fun s w i h => ?_⟩
  · have hnext : s.presentNext = { s with word := w, pending := rest } := by rw [State.presentNext, hpending]
    rw [step, hnext]
    exact evaluate_of_decodeInstr h
  · have hnext : s.presentNext = s := by rw [State.presentNext, hpending]
    rw [step, hnext]
    exact evaluate_of_decodeInstr h
  · rw [State.withFetchWord_toNat, step, State.presentNext_presentWord]
    exact evaluate_of_decodeInstr h

end Sys2Proof
end
